-- ==== Sys2Proof/Word.lean ====
section
/-! DEFINITION. The two word types of the machine: the 8-bit register and data cell (R21, R34) and the 9-bit
instruction word (R60). Bit 0 is the least significant bit of each (R6). -/

namespace Sys2Proof

/-- A register's content and a data-memory cell: 8 bits (R21, R34). -/
abbrev Byte := BitVec 8

/-- An instruction word: 9 bits, bit 8 the most significant (R60). -/
abbrev IWord := BitVec 9

end Sys2Proof
end

