-- ==== Sys2Proof/Syntax.lean ====
section
/-! DEFINITION. The instruction set as syntax: the eight register names (R20) and one constructor per row of
spec/opcode_table.json. Operands stand in the assembler's order (R79, R80): the address register of Load and Store
comes first. -/

namespace Sys2Proof

/-- The eight general registers (R20). -/
inductive Reg where
  | r0 | r1 | r2 | r3 | r4 | r5 | r6 | r7
  deriving DecidableEq, Repr

/-- One constructor per row of the opcode table (R61, R70 to R75). -/
inductive Instr where
  /-- `Add rD rS` (R101). -/
  | add (rD rS : Reg)
  /-- `Xor rD rS` (R102). -/
  | xor (rD rS : Reg)
  /-- `And rD rS` (R103). -/
  | and (rD rS : Reg)
  /-- `Load rA rD` (R111). -/
  | load (rA rD : Reg)
  /-- `Store rA rD` (R112). -/
  | store (rA rD : Reg)
  /-- `Addl rD #n`, with the four bits of `n` as the word holds them (R68, R120). -/
  | addl (rD : Reg) (imm : BitVec 4)
  /-- `LShift rX` (R131). -/
  | lshift (rX : Reg)
  /-- `RShift rX` (R132). -/
  | rshift (rX : Reg)
  /-- `Rotate rX` (R133). -/
  | rotate (rX : Reg)
  /-- `DPLSh rX` (R134). -/
  | dplsh (rX : Reg)
  /-- `DPRSh rX` (R135). -/
  | dprsh (rX : Reg)
  /-- The termination word `101111111` (R74, R180). -/
  | done
  /-- The undefined words `101 xxx 001` (R73, R136). -/
  | undefMode001 (rX : Reg)
  /-- The undefined words `101 xxx 101` (R73, R136). -/
  | undefMode101 (rX : Reg)
  /-- The undefined words `101 xxx 111`, `xxx ≠ 111` (R73, R136). -/
  | undefMode111 (rX : Reg)
  /-- `Branch IfZeroReg rX` (R143). -/
  | branchIfZeroReg (rX : Reg)
  /-- `Branch IfZeroAbs X` (R144). -/
  | branchIfZeroAbs (imm : BitVec 3)
  /-- `Branch IfNegativeReg rX` (R145). -/
  | branchIfNegativeReg (rX : Reg)
  /-- `Branch IfNegativeAbs X` (R146). -/
  | branchIfNegativeAbs (imm : BitVec 3)
  /-- `Branch IfNotZeroReg rX` (R147). -/
  | branchIfNotZeroReg (rX : Reg)
  /-- `Branch IfNotZeroAbs X` (R148). -/
  | branchIfNotZeroAbs (imm : BitVec 3)
  /-- `Branch IfNotNegativeReg rX` (R149). -/
  | branchIfNotNegativeReg (rX : Reg)
  /-- `Branch IfNotNegativeAbs X` (R150). -/
  | branchIfNotNegativeAbs (imm : BitVec 3)
  /-- `Parity CalcP0 rX` (R164). -/
  | parityCalcP0 (rX : Reg)
  /-- `Parity CalcP1 rX` (R165). -/
  | parityCalcP1 (rX : Reg)
  /-- `Parity CalcP2 rX` (R166). -/
  | parityCalcP2 (rX : Reg)
  /-- `Parity CalcP4 rX` (R167). -/
  | parityCalcP4 (rX : Reg)
  /-- `Parity CalcP8 rX` (R168). -/
  | parityCalcP8 (rX : Reg)
  /-- `Parity PackLSW rX` (R169). -/
  | parityPackLSW (rX : Reg)
  /-- `Parity PackMSW rX` (R170). -/
  | parityPackMSW (rX : Reg)
  /-- `Parity UnpackLSW rX` (R171). -/
  | parityUnpackLSW (rX : Reg)
  deriving DecidableEq, Repr

end Sys2Proof
end

