-- ==== Sys2Proof/WellFormed.lean ====
section
/-! DEFINITION. Which instruction terms have a word. The register classes are those of R22; the checks are the
restrictions of R87 that a term can still violate (operand fields whose width is the type's need no check), and the
exclusion of the termination word from the undefined row of mode 111 (R73, R74). -/

namespace Sys2Proof

/-- Loadable-storable registers, `r0` to `r3` (R22, R66): may be the data register of Load and Store. -/
def Reg.loadStorable : Reg → Bool
  | .r0 | .r1 | .r2 | .r3 => true
  | .r4 | .r5 | .r6 | .r7 => false

/-- Long-immediate addressable registers, `r4` to `r7` (R22, R67): may be the register of Addl. -/
def Reg.longImmediate : Reg → Bool
  | .r0 | .r1 | .r2 | .r3 => false
  | .r4 | .r5 | .r6 | .r7 => true

/-- The terms that have an encoding (R66, R67, R73, R87). -/
def Instr.wellFormed : Instr → Bool
  | .load _ rD => rD.loadStorable
  | .store _ rD => rD.loadStorable
  | .addl rD _ => rD.longImmediate
  | .undefMode111 rX => rX != .r7
  | .add _ _ | .xor _ _ | .and _ _ => true
  | .lshift _ | .rshift _ | .rotate _ | .dplsh _ | .dprsh _ => true
  | .done | .undefMode001 _ | .undefMode101 _ => true
  | .branchIfZeroReg _ | .branchIfZeroAbs _ | .branchIfNegativeReg _ | .branchIfNegativeAbs _ => true
  | .branchIfNotZeroReg _ | .branchIfNotZeroAbs _ | .branchIfNotNegativeReg _ | .branchIfNotNegativeAbs _ => true
  | .parityCalcP0 _ | .parityCalcP1 _ | .parityCalcP2 _ | .parityCalcP4 _ | .parityCalcP8 _ => true
  | .parityPackLSW _ | .parityPackMSW _ | .parityUnpackLSW _ => true

/-- The rows of R136: terms that stand for words the spec gives no instruction. -/
def Instr.isUndefined : Instr → Bool
  | .undefMode001 _ | .undefMode101 _ | .undefMode111 _ => true
  | .add _ _ | .xor _ _ | .and _ _ | .load _ _ | .store _ _ | .addl _ _ => false
  | .lshift _ | .rshift _ | .rotate _ | .dplsh _ | .dprsh _ | .done => false
  | .branchIfZeroReg _ | .branchIfZeroAbs _ | .branchIfNegativeReg _ | .branchIfNegativeAbs _ => false
  | .branchIfNotZeroReg _ | .branchIfNotZeroAbs _ | .branchIfNotNegativeReg _ | .branchIfNotNegativeAbs _ => false
  | .parityCalcP0 _ | .parityCalcP1 _ | .parityCalcP2 _ | .parityCalcP4 _ | .parityCalcP8 _ => false
  | .parityPackLSW _ | .parityPackMSW _ | .parityUnpackLSW _ => false

/-- The eight forms of the Branch group (R71), the machine's only control transfers (R140). -/
def Instr.isBranch : Instr → Bool
  | .branchIfZeroReg _ | .branchIfZeroAbs _ | .branchIfNegativeReg _ | .branchIfNegativeAbs _ => true
  | .branchIfNotZeroReg _ | .branchIfNotZeroAbs _ | .branchIfNotNegativeReg _ | .branchIfNotNegativeAbs _ => true
  | .add _ _ | .xor _ _ | .and _ _ | .load _ _ | .store _ _ | .addl _ _ => false
  | .lshift _ | .rshift _ | .rotate _ | .dplsh _ | .dprsh _ => false
  | .done | .undefMode001 _ | .undefMode101 _ | .undefMode111 _ => false
  | .parityCalcP0 _ | .parityCalcP1 _ | .parityCalcP2 _ | .parityCalcP4 _ | .parityCalcP8 _ => false
  | .parityPackLSW _ | .parityPackMSW _ | .parityUnpackLSW _ => false

end Sys2Proof
end

