-- ==== Sys2Proof/Decode.lean ====
section
/-! DEFINITION. Decoding a 9-bit word (R61 to R75), total on the 512 words, and the encoder. Decoding has no refusal of
its own: a word with no instruction decodes to its undefined row, by name (R73, R136). -/

namespace Sys2Proof

/-- The register a full 3-bit register address names (R20, R62, R65). -/
def regOfBits (b : BitVec 3) : Reg :=
  match b.toNat with
  | 0 => .r0 | 1 => .r1 | 2 => .r2 | 3 => .r3 | 4 => .r4 | 5 => .r5 | 6 => .r6 | _ => .r7

/-- The 3-bit address of a register (R20). -/
def regBits : Reg → BitVec 3
  | .r0 => 0b000#3 | .r1 => 0b001#3 | .r2 => 0b010#3 | .r3 => 0b011#3
  | .r4 => 0b100#3 | .r5 => 0b101#3 | .r6 => 0b110#3 | .r7 => 0b111#3

/-- The low two bits of a register address: a truncated register address (R13, R63, R64). -/
def regLowBits (r : Reg) : BitVec 2 := (regBits r).extractLsb' 0 2

/-- M-type data register: the truncated address supplemented with a 0 in the MSB (R66). -/
def dataReg (dt : BitVec 2) : Reg := regOfBits (0b0#1 ++ dt)

/-- I-type register: the truncated address with an MSB of 1 (R67). -/
def immReg (dt : BitVec 2) : Reg := regOfBits (0b1#1 ++ dt)

/-- Bits `[8:6]`, the opcode (R60). -/
def opcodeField (w : IWord) : BitVec 3 := w.extractLsb' 6 3

/-- Bits `[5:3]`: `rd` of the R-type, the operand register or immediate of the O-type (R62, R65). -/
def midField (w : IWord) : BitVec 3 := w.extractLsb' 3 3

/-- Bits `[5:4]`: the truncated register address of the M-type and I-type (R63, R64). -/
def truncField (w : IWord) : BitVec 2 := w.extractLsb' 4 2

/-- Bit `[3]`: the opcode extension of the M-type (R63). -/
def extField (w : IWord) : BitVec 1 := w.extractLsb' 3 1

/-- Bits `[3:0]`: the immediate of the I-type (R64). -/
def immField (w : IWord) : BitVec 4 := w.extractLsb' 0 4

/-- Bits `[2:0]`: `rs`, the address register, or the mode (R62, R63, R65). -/
def lowField (w : IWord) : BitVec 3 := w.extractLsb' 0 3

/-- Opcode `101`, the Shift group, without the termination word (R70). -/
def decodeShift (mode x : BitVec 3) : Instr :=
  match mode.toNat with
  | 0 => .lshift (regOfBits x)
  | 1 => .undefMode001 (regOfBits x)
  | 2 => .rshift (regOfBits x)
  | 3 => .rotate (regOfBits x)
  | 4 => .dplsh (regOfBits x)
  | 5 => .undefMode101 (regOfBits x)
  | 6 => .dprsh (regOfBits x)
  | _ => .undefMode111 (regOfBits x)

/-- Opcode `110`, the Branch group (R71). -/
def decodeBranch (mode x : BitVec 3) : Instr :=
  match mode.toNat with
  | 0 => .branchIfZeroReg (regOfBits x)
  | 1 => .branchIfZeroAbs x
  | 2 => .branchIfNegativeReg (regOfBits x)
  | 3 => .branchIfNegativeAbs x
  | 4 => .branchIfNotZeroReg (regOfBits x)
  | 5 => .branchIfNotZeroAbs x
  | 6 => .branchIfNotNegativeReg (regOfBits x)
  | _ => .branchIfNotNegativeAbs x

/-- Opcode `111`, the Parity group (R72). -/
def decodeParity (mode x : BitVec 3) : Instr :=
  match mode.toNat with
  | 0 => .parityCalcP0 (regOfBits x)
  | 1 => .parityCalcP1 (regOfBits x)
  | 2 => .parityCalcP2 (regOfBits x)
  | 3 => .parityCalcP4 (regOfBits x)
  | 4 => .parityCalcP8 (regOfBits x)
  | 5 => .parityPackLSW (regOfBits x)
  | 6 => .parityPackMSW (regOfBits x)
  | _ => .parityUnpackLSW (regOfBits x)

/-- The termination word `101111111` (R74). -/
def doneWord : IWord := 0b101111111#9

/-- Decoding, in the order of R75: the termination word on all nine bits first, then the opcode. -/
def decode (w : IWord) : Instr :=
  if w = doneWord then .done else
  match (opcodeField w).toNat with
  | 0 => .add (regOfBits (midField w)) (regOfBits (lowField w))
  | 1 => .xor (regOfBits (midField w)) (regOfBits (lowField w))
  | 2 => .and (regOfBits (midField w)) (regOfBits (lowField w))
  | 3 =>
    if extField w = 0#1 then .load (regOfBits (lowField w)) (dataReg (truncField w))
    else .store (regOfBits (lowField w)) (dataReg (truncField w))
  | 4 => .addl (immReg (truncField w)) (immField w)
  | 5 => decodeShift (lowField w) (midField w)
  | 6 => decodeBranch (lowField w) (midField w)
  | _ => decodeParity (lowField w) (midField w)

/-- Opcode and mode of an O-type word around its operand field (R65). -/
def oWord (opcode x mode : BitVec 3) : IWord := opcode ++ x ++ mode

/-- The word of a well-formed instruction (R62 to R65, R70 to R72, R79). -/
def encode : Instr → IWord
  | .add rD rS => 0b000#3 ++ regBits rD ++ regBits rS
  | .xor rD rS => 0b001#3 ++ regBits rD ++ regBits rS
  | .and rD rS => 0b010#3 ++ regBits rD ++ regBits rS
  | .load rA rD => 0b011#3 ++ regLowBits rD ++ 0b0#1 ++ regBits rA
  | .store rA rD => 0b011#3 ++ regLowBits rD ++ 0b1#1 ++ regBits rA
  | .addl rD imm => 0b100#3 ++ regLowBits rD ++ imm
  | .lshift rX => oWord 0b101#3 (regBits rX) 0b000#3
  | .undefMode001 rX => oWord 0b101#3 (regBits rX) 0b001#3
  | .rshift rX => oWord 0b101#3 (regBits rX) 0b010#3
  | .rotate rX => oWord 0b101#3 (regBits rX) 0b011#3
  | .dplsh rX => oWord 0b101#3 (regBits rX) 0b100#3
  | .undefMode101 rX => oWord 0b101#3 (regBits rX) 0b101#3
  | .dprsh rX => oWord 0b101#3 (regBits rX) 0b110#3
  | .undefMode111 rX => oWord 0b101#3 (regBits rX) 0b111#3
  | .done => doneWord
  | .branchIfZeroReg rX => oWord 0b110#3 (regBits rX) 0b000#3
  | .branchIfZeroAbs imm => oWord 0b110#3 imm 0b001#3
  | .branchIfNegativeReg rX => oWord 0b110#3 (regBits rX) 0b010#3
  | .branchIfNegativeAbs imm => oWord 0b110#3 imm 0b011#3
  | .branchIfNotZeroReg rX => oWord 0b110#3 (regBits rX) 0b100#3
  | .branchIfNotZeroAbs imm => oWord 0b110#3 imm 0b101#3
  | .branchIfNotNegativeReg rX => oWord 0b110#3 (regBits rX) 0b110#3
  | .branchIfNotNegativeAbs imm => oWord 0b110#3 imm 0b111#3
  | .parityCalcP0 rX => oWord 0b111#3 (regBits rX) 0b000#3
  | .parityCalcP1 rX => oWord 0b111#3 (regBits rX) 0b001#3
  | .parityCalcP2 rX => oWord 0b111#3 (regBits rX) 0b010#3
  | .parityCalcP4 rX => oWord 0b111#3 (regBits rX) 0b011#3
  | .parityCalcP8 rX => oWord 0b111#3 (regBits rX) 0b100#3
  | .parityPackLSW rX => oWord 0b111#3 (regBits rX) 0b101#3
  | .parityPackMSW rX => oWord 0b111#3 (regBits rX) 0b110#3
  | .parityUnpackLSW rX => oWord 0b111#3 (regBits rX) 0b111#3

/-- The opcode of an instruction's format and group (R61). -/
def opcodeOf : Instr → BitVec 3
  | .add _ _ => 0b000#3
  | .xor _ _ => 0b001#3
  | .and _ _ => 0b010#3
  | .load _ _ | .store _ _ => 0b011#3
  | .addl _ _ => 0b100#3
  | .lshift _ | .rshift _ | .rotate _ | .dplsh _ | .dprsh _ => 0b101#3
  | .done | .undefMode001 _ | .undefMode101 _ | .undefMode111 _ => 0b101#3
  | .branchIfZeroReg _ | .branchIfZeroAbs _ | .branchIfNegativeReg _ | .branchIfNegativeAbs _ => 0b110#3
  | .branchIfNotZeroReg _ | .branchIfNotZeroAbs _ => 0b110#3
  | .branchIfNotNegativeReg _ | .branchIfNotNegativeAbs _ => 0b110#3
  | .parityCalcP0 _ | .parityCalcP1 _ | .parityCalcP2 _ | .parityCalcP4 _ | .parityCalcP8 _ => 0b111#3
  | .parityPackLSW _ | .parityPackMSW _ | .parityUnpackLSW _ => 0b111#3

/-- What the decoder reads from an instruction whose bits are `w`, numbered as the opcode table numbers them. Only the
first `nbits` bits of `w` are the table's; the instruction has nine bits (R60), so a number with a higher bit set is no
instruction word. -/
def decodeTableWord (nbits w : Nat) : Option Instr :=
  if w % 2 ^ nbits < 512 then some (decode (BitVec.ofNat 9 (w % 2 ^ nbits))) else none

end Sys2Proof
end

