-- ==== Sys2Proof/Config.lean ====
section
/-! DEFINITION. The open parameters of the machine (R5, R15) and its free values (R12). Each `opaque` constant has no
body: nothing in Lean can evaluate it, so a theorem of the model holds for every value of it. The parameter REL_BASE,
whose value R5 gives, is `Machine.relBase` in Machine/Operands.lean. -/

namespace Sys2Proof.Config

/-- By how much PC_WIDTH exceeds the 3 bits that R5 and R25 demand at least (D5: OPEN). Log 1, UNVERIFIED, safe. -/
opaque pcWidthAboveThree : Nat

/-- PC_WIDTH, the width of the program counter in bits: open, at least 3 (R5, R25). It bounds the length of a program. -/
def pcWidth : Nat := 3 + pcWidthAboveThree

/-- PARITY_P0 of `x[0]`, `x[1]` (R5, R162; D20: OPEN). Log 8, safe. -/
opaque parityP0 : Byte → Byte → Bool

/-- PARITY_P1 of `x[0]`, `x[1]` (R5, R162; D20: OPEN). Log 8, safe. -/
opaque parityP1 : Byte → Byte → Bool

/-- PARITY_P2 of `x[0]`, `x[1]` (R5, R162; D20: OPEN). Log 8, safe. -/
opaque parityP2 : Byte → Byte → Bool

/-- PARITY_P4 of `x[0]`, `x[1]` (R5, R162; D20: OPEN). Log 8, safe. -/
opaque parityP4 : Byte → Byte → Bool

/-- PARITY_P8 of `x[0]`, `x[1]` (R5, R162; D20: OPEN). Log 8, safe. -/
opaque parityP8 : Byte → Byte → Bool

/-- UNPACK_LSW of `x[0]`, `x[1]` (R5, R171; D21: OPEN). Log 9, safe. -/
opaque unpackLSW : Byte → Byte → Byte

/-- The k-th draw of a flag that a rule leaves unspecified (R12, R30). Log 6, safe. -/
opaque freeFlag : Nat → Bool

/-- The k-th draw of an 8-bit value that a rule leaves unspecified (R12, R172). Log 7, safe. -/
opaque freeByte : Nat → Byte

end Sys2Proof.Config
end

