-- ==== Sys2Proof/Machine/State.lean ====
section
/-! DEFINITION. The machine's state (R20 to R36), the reasons a step can stop (R201, R181) and the state after reset
(R37, R220). Plain data: every field has decidable equality. -/

namespace Sys2Proof.Machine

/-- The eight general registers of 8 bits (R20, R21). None is hardwired, none is banked (R24). -/
structure RegFile where
  r0 : Byte
  r1 : Byte
  r2 : Byte
  r3 : Byte
  r4 : Byte
  r5 : Byte
  r6 : Byte
  r7 : Byte
  deriving DecidableEq, Repr

/-- Data memory (R34): the cells that differ from what an unlisted cell reads as, by rising address. -/
abbrev Memory := List Host.Cell

/-- What a data cell that nothing has written reads as. R37 leaves it to the host ("arbitrary but definite"); the
model takes 0x00. DESIGN CHOICE, unsafe: log 4. -/
def unlistedCell : Byte := 0x00#8

/-- Every address of `m` is at least `lo`, addresses rise strictly and stay below 256, and no entry equals what an
unlisted cell reads as. -/
def Memory.canonicalFrom (lo : Nat) : Memory → Bool
  | [] => true
  | (a, v) :: m => decide (lo ≤ a) && decide (a < 256) && decide (v ≠ unlistedCell) && Memory.canonicalFrom (a + 1) m

/-- The canonical form of data memory: equal memories are equal lists. -/
def Memory.wf (m : Memory) : Bool := Memory.canonicalFrom 0 m

/-- The whole state (R20 to R36: "There is nothing else"), and the model's own count of draws. -/
structure State where
  /-- `x[0]` to `x[7]` (R20). -/
  regs : RegFile
  /-- The address of the instruction to execute (R25), an integer that is checked at the next fetch (R26). Log 1. -/
  pc : Int
  /-- The Zero flag (R27, R29). -/
  z : Bool
  /-- The Negative flag (R27, R29). -/
  n : Bool
  /-- The Shift-Carry flag (R27, R28). -/
  sc : Bool
  /-- The termination signal (R31). -/
  done : Bool
  /-- DMEM (R34). -/
  dmem : Memory
  /-- PROG, the content of instruction memory, which no instruction changes (R35). Log 5. -/
  prog : List IWord
  /-- The model's own: how many free values have been drawn (R12). Log 6. -/
  draws : Nat
  deriving DecidableEq, Repr

/-- Why a run ends abnormally (R201, R203). Both are outcomes of the model, not events of the hardware. -/
inductive Fault where
  /-- One of the 23 undefined words was fetched (R136): the word and its address. Raised by the three undefined rows.
  Safe: the chip does something the spec does not give (log 12). -/
  | undefinedInstruction (word : IWord) (pc : Int)
  /-- `pc` is outside `0 .. L-1` at a fetch (R47): the address. Raised by `step`. Safe: what the chip fetches there is
  not given (log 13). -/
  | fetchOutOfProgram (pc : Int)
  deriving DecidableEq, Repr

/-- Why a step has no next state without a fault. -/
inductive Refusal where
  /-- The instruction has no meaning yet: raised by an arm of `exec` alone. Safe. -/
  | notModelled (mnemonic : String)
  /-- `done` is 1: the run ended normally and no further step exists (R180, R181, U13). Raised by `step`. Safe: nothing
  is claimed of the chip after the end (log 11). -/
  | runEnded
  deriving DecidableEq, Repr

/-- The three outcomes of a step over this machine's types. -/
abbrev Outcome := Host.Outcome State Fault Refusal

/-- The machine right after reset. `pc` = 0 and `done` = 0 are the spec's (R37, R220). The spec gives registers, flags
and memories no value (R37): zero registers and flags (logs 2, 3), nothing listed in data memory (log 4), no program
loaded (log 5), no value drawn (log 6), each a DESIGN CHOICE, unsafe. -/
def State.reset : State where
  regs := ⟨0#8, 0#8, 0#8, 0#8, 0#8, 0#8, 0#8, 0#8⟩
  pc := 0
  z := false
  n := false
  sc := false
  done := false
  dmem := []
  prog := []
  draws := 0

end Sys2Proof.Machine
end

