-- ==== Sys2Proof/Machine/Ops.lean ====
section
/-! DEFINITION. The named operations on registers, memories, the program counter and the done signal. The hardware takes
no exception and returns from none (R200, R204): what stands in an exception entry's place is `raiseUndefined` here and
the fetch fault of Step.lean (R201). -/

namespace Sys2Proof.Machine

/-- Read a register of the file (R20). -/
def RegFile.get (f : RegFile) : Reg → Byte
  | .r0 => f.r0 | .r1 => f.r1 | .r2 => f.r2 | .r3 => f.r3
  | .r4 => f.r4 | .r5 => f.r5 | .r6 => f.r6 | .r7 => f.r7

/-- Write a register of the file, all eight bits (R24). -/
def RegFile.set (f : RegFile) (r : Reg) (v : Byte) : RegFile :=
  match r with
  | .r0 => { f with r0 := v } | .r1 => { f with r1 := v } | .r2 => { f with r2 := v } | .r3 => { f with r3 := v }
  | .r4 => { f with r4 := v } | .r5 => { f with r5 := v } | .r6 => { f with r6 := v } | .r7 => { f with r7 := v }

/-- `x[r]` (R8). -/
def State.reg (s : State) (r : Reg) : Byte := s.regs.get r

/-- `x[r] <- v` (R8). -/
def State.setReg (s : State) (r : Reg) (v : Byte) : State := { s with regs := s.regs.set r v }

/-- The content of a data cell (R41). -/
def Memory.read : Memory → Nat → Byte
  | [], _ => unlistedCell
  | (b, v) :: m, a => if a = b then v else Memory.read m a

/-- Drop every entry for an address. -/
def Memory.erase : Memory → Nat → Memory
  | [], _ => []
  | (b, v) :: m, a => if a = b then Memory.erase m a else (b, v) :: Memory.erase m a

/-- Put an entry before the first entry of a higher address. -/
def Memory.place : Memory → Nat → Byte → Memory
  | [], a, v => [(a, v)]
  | (b, w) :: m, a, v => if a < b then (a, v) :: (b, w) :: m else (b, w) :: Memory.place m a v

/-- Set one data cell (R41), keeping the canonical form: the value an unlisted cell reads as is not listed. -/
def Memory.write (m : Memory) (a : Nat) (v : Byte) : Memory :=
  if v = unlistedCell then m.erase a else (m.erase a).place a v

/-- `MemRead(ea, 1)` (R9, R41): every 8-bit address is valid, a read changes nothing. -/
def State.memRead (s : State) (ea : Byte) : Byte := s.dmem.read ea.toNat

/-- `MemWrite(ea, 1, v)` (R9, R41): one cell changes, no access faults. -/
def State.memWrite (s : State) (ea v : Byte) : State := { s with dmem := s.dmem.write ea.toNat v }

/-- `pc <- pc + 1` (R26). -/
def State.advance (s : State) : State := { s with pc := s.pc + 1 }

/-- `pc <- t`: the address of the next instruction to execute (R8). -/
def State.jump (s : State) (t : Int) : State := { s with pc := t }

/-- `done <- 1` (R31, R180). -/
def State.raiseDone (s : State) : State := { s with done := true }

/-- The word at an instruction address, none outside `0 .. L-1` (R47). -/
def fetchWord (prog : List IWord) (a : Int) : Option IWord :=
  match a with
  | .ofNat k => prog[k]?
  | .negSucc _ => none

/-- `raise UndefinedInstruction(instr)` (R11, R136, R201): the run ends in a fault that names the word and its `pc`, and
no state changes (R203). -/
def raiseUndefined (i : Instr) (s : State) : Outcome := .fault (.undefinedInstruction (encode i) s.pc)

/-- The fault's code, the spec's own numbering (R201). -/
def Fault.code : Fault → Nat
  | .undefinedInstruction _ _ => 1
  | .fetchOutOfProgram _ => 2

/-- The instruction memory `prog` with `w` at address `k`; addresses below `k` that it lacked hold the termination word. -/
def placeWord (prog : List IWord) (k : Nat) (w : IWord) : List IWord :=
  prog.take k ++ List.replicate (k - prog.length) doneWord ++ w :: prog.drop (k + 1)

/-- What the host does before and at launch (R53, R212): it writes the program and the data memory and starts the core
at address 0 with `done` = 0. Registers and flags keep what they held (R37, R220). -/
def launch (prog : List IWord) (dmem : Memory) (s : State) : State :=
  { s with prog := prog, dmem := dmem, pc := 0, done := false }

end Sys2Proof.Machine
end

