-- ==== Sys2Proof/Machine/Flags.lean ====
section
/-! DEFINITION. Every flag computation: `SetZN` (R10, R29), the unspecified Z and N (R10, R30), the Shift-Carry flag
(R28), and the end every instruction with an ALU result shares. -/

namespace Sys2Proof.Machine

/-- `v = 0` (R29). -/
def zeroFlagOf (v : Byte) : Bool := v == 0#8

/-- `v[7]` (R29). -/
def negativeFlagOf (v : Byte) : Bool := v.getLsbD 7

/-- `SetZN(v)` (R10, R29). -/
def State.setZN (s : State) (v : Byte) : State := { s with z := zeroFlagOf v, n := negativeFlagOf v }

/-- `ZN <- unspecified` (R10, R30): each flag is a fresh draw. Log 6, safe. -/
def State.drawZN (s : State) : State :=
  { s with z := Config.freeFlag s.draws, n := Config.freeFlag (s.draws + 1), draws := s.draws + 2 }

/-- Advance past one drawn byte (R12, R172). The byte drawn is `Config.freeByte s.draws`. Log 7, safe. -/
def State.countDraw (s : State) : State := { s with draws := s.draws + 1 }

/-- `SC <- b` (R28). -/
def State.setSC (s : State) (b : Bool) : State := { s with sc := b }

/-- What every instruction with an ALU result does with it: write the register, set Z and N from it, step on (R26, R29). -/
def writeResult (rD : Reg) (v : Byte) (s : State) : Outcome := .next ((s.setReg rD v).setZN v).advance

end Sys2Proof.Machine
end

