-- ==== Sys2Proof/Machine/Operands.lean ====
section
/-! DEFINITION. Every operand form: register, register indirect, signed immediate, relative branch target by register,
absolute branch target, and the implicit parity data element (R66 to R69, R110, R141, R142, R160). -/

namespace Sys2Proof.Machine

/-- The effective address of Load and Store: the whole content of the address register (R110). -/
def effectiveAddress (rA : Reg) (s : State) : Byte := s.reg rA

/-- The immediate operand of Addl: four bits of two's complement, sign-extended to eight (R68). -/
def immOperand (imm : BitVec 4) : Byte := imm.signExtend 8

/-- REL_BASE (R5, R141): 0, the base of a relative branch is the branch's own address. DESIGN CHOICE of the spec (D7),
unsafe: log 10. -/
def relBase : Int := 0

/-- The target of a relative branch: `pc + REL_BASE + signed(x[o])`, on integers (R141). -/
def relativeTarget (rX : Reg) (s : State) : Int := s.pc + relBase + (s.reg rX).toInt

/-- The target of an absolute branch: the immediate itself, an address 0 to 7 (R142). -/
def absoluteTarget (imm : BitVec 3) : Int := (imm.toNat : Int)

/-- The LSW of the parity data element, `x[0]` (R23). -/
def State.lsw (s : State) : Byte := s.reg .r0

/-- The MSW of the parity data element, `x[1]` (R23). -/
def State.msw (s : State) : Byte := s.reg .r1

/-- Whether `x[1]` has the raw layout's five zero bits, `x[1][7:3]` = 0 (R160, R172). -/
def rawLayout (x1 : Byte) : Bool := x1.extractLsb' 3 5 == 0#5

end Sys2Proof.Machine
end

