-- ==== Sys2Proof/Machine/Branch.lean ====
section
/-! DEFINITION. The Branch group (R140 to R150): eight conditional branches. No register, memory cell, SC or done is
written; Z and N are unspecified after, taken or not (R140). -/

namespace Sys2Proof.Machine

/-- The shared end of a branch (R140): to the target if taken, else to the next instruction. -/
def branchTo (taken : Bool) (target : Int) (s : State) : Outcome :=
  .next (if taken then s.drawZN.jump target else s.drawZN.advance)

/-- `Branch IfZeroReg rX` (R143). -/
def execBranchIfZeroReg (rX : Reg) (s : State) : Outcome := branchTo s.z (relativeTarget rX s) s

/-- `Branch IfZeroAbs X` (R144). -/
def execBranchIfZeroAbs (imm : BitVec 3) (s : State) : Outcome := branchTo s.z (absoluteTarget imm) s

/-- `Branch IfNegativeReg rX` (R145). -/
def execBranchIfNegativeReg (rX : Reg) (s : State) : Outcome := branchTo s.n (relativeTarget rX s) s

/-- `Branch IfNegativeAbs X` (R146). -/
def execBranchIfNegativeAbs (imm : BitVec 3) (s : State) : Outcome := branchTo s.n (absoluteTarget imm) s

/-- `Branch IfNotZeroReg rX` (R147). -/
def execBranchIfNotZeroReg (rX : Reg) (s : State) : Outcome := branchTo (!s.z) (relativeTarget rX s) s

/-- `Branch IfNotZeroAbs X` (R148). -/
def execBranchIfNotZeroAbs (imm : BitVec 3) (s : State) : Outcome := branchTo (!s.z) (absoluteTarget imm) s

/-- `Branch IfNotNegativeReg rX` (R149). -/
def execBranchIfNotNegativeReg (rX : Reg) (s : State) : Outcome := branchTo (!s.n) (relativeTarget rX s) s

/-- `Branch IfNotNegativeAbs X` (R150). -/
def execBranchIfNotNegativeAbs (imm : BitVec 3) (s : State) : Outcome := branchTo (!s.n) (absoluteTarget imm) s

end Sys2Proof.Machine
end

