-- ==== Sys2Proof/Machine/ImmediateType.lean ====
section
/-! DEFINITION. The immediate-type instruction: Addl (R120). -/

namespace Sys2Proof.Machine

/-- `Addl rD #n` (R120): the sum with the sign-extended immediate, modulo 256. -/
def execAddl (rD : Reg) (imm : BitVec 4) (s : State) : Outcome := writeResult rD (s.reg rD + immOperand imm) s

end Sys2Proof.Machine
end

