-- ==== Sys2Proof/Machine/MemoryType.lean ====
section
/-! DEFINITION. Memory-type instructions: Load, Store (R110 to R112). -/

namespace Sys2Proof.Machine

/-- `Load rA rD` (R111): the address is the old content of `rA`, also when `rA` is `rD`; Z and N are unspecified after. -/
def execLoad (rA rD : Reg) (s : State) : Outcome :=
  .next ((s.setReg rD (s.memRead (effectiveAddress rA s))).drawZN).advance

/-- `Store rA rD` (R112): no register is written; Z and N are unspecified after. -/
def execStore (rA rD : Reg) (s : State) : Outcome :=
  .next ((s.memWrite (effectiveAddress rA s) (s.reg rD)).drawZN).advance

end Sys2Proof.Machine
end

