-- ==== Sys2Proof/Machine/Parity.lean ====
section
/-! DEFINITION. The Parity group (R160 to R173). `r0` and `r1` are read implicitly, the operand register is written only
(R163). The five parity functions and UNPACK_LSW are open parameters (R162, R171); the spec's default bodies stand
beside them as `hammingP0` to `hammingP8` and `defaultUnpackLSW`, and no meaning uses a default. -/

namespace Sys2Proof.Machine

/-- The parity function CalcP0 applies: the open parameter PARITY_P0 (R162). Log 8. -/
def parityP0 (x0 x1 : Byte) : Bool := Config.parityP0 x0 x1

/-- The parity function CalcP1 applies: the open parameter PARITY_P1 (R162). Log 8. -/
def parityP1 (x0 x1 : Byte) : Bool := Config.parityP1 x0 x1

/-- The parity function CalcP2 applies: the open parameter PARITY_P2 (R162). Log 8. -/
def parityP2 (x0 x1 : Byte) : Bool := Config.parityP2 x0 x1

/-- The parity function CalcP4 applies: the open parameter PARITY_P4 (R162). Log 8. -/
def parityP4 (x0 x1 : Byte) : Bool := Config.parityP4 x0 x1

/-- The parity function CalcP8 applies: the open parameter PARITY_P8 (R162). Log 8. -/
def parityP8 (x0 x1 : Byte) : Bool := Config.parityP8 x0 x1

/-- The function UnpackLSW applies: the open parameter UNPACK_LSW (R171). Log 9. -/
def unpackLSW (x0 x1 : Byte) : Byte := Config.unpackLSW x0 x1

/-- `[0000 000(p0)]` (R164). -/
def p0Picture (p : Bool) : Byte := 0b0000000#7 ++ BitVec.ofBool p

/-- `[0000 00(p1)0]` (R165). -/
def p1Picture (p : Bool) : Byte := 0b000000#6 ++ BitVec.ofBool p ++ 0b0#1

/-- `[0000 0(p2)00]` (R166). -/
def p2Picture (p : Bool) : Byte := 0b00000#5 ++ BitVec.ofBool p ++ 0b00#2

/-- `[000(p4) 0000]` (R167). -/
def p4Picture (p : Bool) : Byte := 0b000#3 ++ BitVec.ofBool p ++ 0b0000#4

/-- `[0000 000(p8)]` (R168). -/
def p8Picture (p : Bool) : Byte := 0b0000000#7 ++ BitVec.ofBool p

/-- `[(b4)(b3)(b2)0 (b1)000]` from the raw layout (R169). -/
def packLSWPicture (x0 : Byte) : Byte :=
  x0.extractLsb' 3 1 ++ x0.extractLsb' 2 1 ++ x0.extractLsb' 1 1 ++ 0b0#1 ++ x0.extractLsb' 0 1 ++ 0b000#3

/-- `[(b11)(b10)(b9)(b8) (b7)(b6)(b5)0]` from the raw layout (R170). -/
def packMSWPicture (x0 x1 : Byte) : Byte := x1.extractLsb' 0 3 ++ x0.extractLsb' 4 4 ++ 0b0#1

/-- Write `v` if `x[1]` has the raw layout; otherwise the value written is a fresh draw, and Z and N follow it (R172). -/
def writeIfRawLayout (rX : Reg) (v : Byte) (s : State) : Outcome :=
  if rawLayout s.msw then writeResult rX v s else writeResult rX (Config.freeByte s.draws) s.countDraw

/-- `Parity CalcP0 rX` (R164): every layout meets its expectation. -/
def execParityCalcP0 (rX : Reg) (s : State) : Outcome := writeResult rX (p0Picture (parityP0 s.lsw s.msw)) s

/-- `Parity CalcP1 rX` (R165). -/
def execParityCalcP1 (rX : Reg) (s : State) : Outcome := writeIfRawLayout rX (p1Picture (parityP1 s.lsw s.msw)) s

/-- `Parity CalcP2 rX` (R166). -/
def execParityCalcP2 (rX : Reg) (s : State) : Outcome := writeIfRawLayout rX (p2Picture (parityP2 s.lsw s.msw)) s

/-- `Parity CalcP4 rX` (R167). -/
def execParityCalcP4 (rX : Reg) (s : State) : Outcome := writeIfRawLayout rX (p4Picture (parityP4 s.lsw s.msw)) s

/-- `Parity CalcP8 rX` (R168). -/
def execParityCalcP8 (rX : Reg) (s : State) : Outcome := writeIfRawLayout rX (p8Picture (parityP8 s.lsw s.msw)) s

/-- `Parity PackLSW rX` (R169): the result depends on `x[0][3:0]` only, so R172 does not apply. -/
def execParityPackLSW (rX : Reg) (s : State) : Outcome := writeResult rX (packLSWPicture s.lsw) s

/-- `Parity PackMSW rX` (R170). -/
def execParityPackMSW (rX : Reg) (s : State) : Outcome := writeIfRawLayout rX (packMSWPicture s.lsw s.msw) s

/-- `Parity UnpackLSW rX` (R171). -/
def execParityUnpackLSW (rX : Reg) (s : State) : Outcome := writeResult rX (unpackLSW s.lsw s.msw) s

/-- The exclusive or of the bits of `v` at the places listed. -/
def xorBits {w : Nat} (v : BitVec w) (places : List Nat) : Bool := places.foldr (fun i b => v.getLsbD i ^^ b) false

/-- The 16-bit parity data element `x[1] ‖ x[0]` (R160, R161). -/
def element (x0 x1 : Byte) : BitVec 16 := x1 ++ x0

/-- Default of PARITY_P1 (R162): `b1 ^ b2 ^ b4 ^ b5 ^ b7 ^ b9 ^ b11` of the raw layout. -/
def hammingP1 (x0 x1 : Byte) : Bool := xorBits (element x0 x1) [0, 1, 3, 4, 6, 8, 10]

/-- Default of PARITY_P2 (R162): `b1 ^ b3 ^ b4 ^ b6 ^ b7 ^ b10 ^ b11` of the raw layout. -/
def hammingP2 (x0 x1 : Byte) : Bool := xorBits (element x0 x1) [0, 2, 3, 5, 6, 9, 10]

/-- Default of PARITY_P4 (R162): `b2 ^ b3 ^ b4 ^ b8 ^ b9 ^ b10 ^ b11` of the raw layout. -/
def hammingP4 (x0 x1 : Byte) : Bool := xorBits (element x0 x1) [1, 2, 3, 7, 8, 9, 10]

/-- Default of PARITY_P8 (R162): `b5 ^ b6 ^ b7 ^ b8 ^ b9 ^ b10 ^ b11` of the raw layout. -/
def hammingP8 (x0 x1 : Byte) : Bool := xorBits (element x0 x1) [4, 5, 6, 7, 8, 9, 10]

/-- Default of PARITY_P0 (R162): the exclusive or of bits 15 to 1 of the packed layout. -/
def hammingP0 (x0 x1 : Byte) : Bool :=
  xorBits (element x0 x1) [1, 2, 3, 4, 5, 6, 7, 8, 9, 10, 11, 12, 13, 14, 15]

/-- Default of UNPACK_LSW (R171): `[0000 (b4)(b3)(b2)(b1)]` of a packed LSW; `x[1]` is not used. -/
def defaultUnpackLSW (x0 _x1 : Byte) : Byte :=
  0b0000#4 ++ x0.extractLsb' 7 1 ++ x0.extractLsb' 6 1 ++ x0.extractLsb' 5 1 ++ x0.extractLsb' 3 1

end Sys2Proof.Machine
end

