-- ==== Sys2Proof/Machine/RegisterType.lean ====
section
/-! DEFINITION. Register-type instructions: Add, Xor, And (R100 to R103). -/

namespace Sys2Proof.Machine

/-- `Add rD rS` (R101): the sum modulo 256. -/
def execAdd (rD rS : Reg) (s : State) : Outcome := writeResult rD (s.reg rD + s.reg rS) s

/-- `Xor rD rS` (R102). -/
def execXor (rD rS : Reg) (s : State) : Outcome := writeResult rD (s.reg rD ^^^ s.reg rS) s

/-- `And rD rS` (R103). -/
def execAnd (rD rS : Reg) (s : State) : Outcome := writeResult rD (s.reg rD &&& s.reg rS) s

end Sys2Proof.Machine
end

