-- ==== Sys2Proof/Machine/Shift.lean ====
section
/-! DEFINITION. The Shift group: LShift, RShift, Rotate, DPLSh, DPRSh and the undefined words of opcode 101 (R130 to
R136). -/

namespace Sys2Proof.Machine

/-- `a[6:0] ‖ b` (R131, R134). -/
def shiftLeftIn (a : Byte) (b : Bool) : Byte := a.extractLsb' 0 7 ++ BitVec.ofBool b

/-- `b ‖ a[7:1]` (R132, R133, R135). -/
def shiftRightIn (b : Bool) (a : Byte) : Byte := BitVec.ofBool b ++ a.extractLsb' 1 7

/-- `LShift rX` (R131): 0 in at bit 0, the old bit 7 out to SC. -/
def execLShift (rX : Reg) (s : State) : Outcome :=
  writeResult rX (shiftLeftIn (s.reg rX) false) (s.setSC ((s.reg rX).getLsbD 7))

/-- `RShift rX` (R132): 0 in at bit 7, the old bit 0 out to SC. -/
def execRShift (rX : Reg) (s : State) : Outcome :=
  writeResult rX (shiftRightIn false (s.reg rX)) (s.setSC ((s.reg rX).getLsbD 0))

/-- `Rotate rX` (R133): bit 0 goes to bit 7; SC is neither read nor written. -/
def execRotate (rX : Reg) (s : State) : Outcome :=
  writeResult rX (shiftRightIn ((s.reg rX).getLsbD 0) (s.reg rX)) s

/-- `DPLSh rX` (R134): SC in at bit 0; SC is not written. -/
def execDPLSh (rX : Reg) (s : State) : Outcome := writeResult rX (shiftLeftIn (s.reg rX) s.sc) s

/-- `DPRSh rX` (R135): SC in at bit 7; SC is not written. -/
def execDPRSh (rX : Reg) (s : State) : Outcome := writeResult rX (shiftRightIn s.sc (s.reg rX)) s

/-- The words `101 xxx 001` (R136): the fault UndefinedInstruction. -/
def execUndefMode001 (rX : Reg) (s : State) : Outcome := raiseUndefined (.undefMode001 rX) s

/-- The words `101 xxx 101` (R136): the fault UndefinedInstruction. -/
def execUndefMode101 (rX : Reg) (s : State) : Outcome := raiseUndefined (.undefMode101 rX) s

/-- The words `101 xxx 111`, `xxx ≠ 111` (R136): the fault UndefinedInstruction. -/
def execUndefMode111 (rX : Reg) (s : State) : Outcome := raiseUndefined (.undefMode111 rX) s

end Sys2Proof.Machine
end

