-- ==== Sys2Proof/Machine/Termination.lean ====
section
/-! DEFINITION. The termination word (R180). -/

namespace Sys2Proof.Machine

/-- `Done` (R180): `done <- 1`; `pc` keeps the word's own address; Z and N are left unspecified; nothing else changes.
That no further instruction executes is `step`'s part. -/
def execDone (s : State) : Outcome := .next s.drawZN.raiseDone

end Sys2Proof.Machine
end

