-- ==== Sys2Proof/Machine/Dispatch.lean ====
section
/-! DEFINITION. The one match over the instructions: each constructor's meaning (R101 to R180). -/

namespace Sys2Proof.Machine

def exec (i : Instr) (s : State) : Host.Outcome State Fault Refusal :=
  match i with
  | .add rD rS => Sys2Proof.Machine.execAdd rD rS s
  | .xor rD rS => Sys2Proof.Machine.execXor rD rS s
  | .and rD rS => Sys2Proof.Machine.execAnd rD rS s
  | .load rA rD => Sys2Proof.Machine.execLoad rA rD s
  | .store rA rD => Sys2Proof.Machine.execStore rA rD s
  | .addl rD imm => Sys2Proof.Machine.execAddl rD imm s
  | .lshift rX => Sys2Proof.Machine.execLShift rX s
  | .rshift rX => Sys2Proof.Machine.execRShift rX s
  | .rotate rX => Sys2Proof.Machine.execRotate rX s
  | .dplsh rX => Sys2Proof.Machine.execDPLSh rX s
  | .dprsh rX => Sys2Proof.Machine.execDPRSh rX s
  | .done => Sys2Proof.Machine.execDone s
  | .undefMode001 rX => Sys2Proof.Machine.execUndefMode001 rX s
  | .undefMode101 rX => Sys2Proof.Machine.execUndefMode101 rX s
  | .undefMode111 rX => Sys2Proof.Machine.execUndefMode111 rX s
  | .branchIfZeroReg rX => Sys2Proof.Machine.execBranchIfZeroReg rX s
  | .branchIfZeroAbs imm => Sys2Proof.Machine.execBranchIfZeroAbs imm s
  | .branchIfNegativeReg rX => Sys2Proof.Machine.execBranchIfNegativeReg rX s
  | .branchIfNegativeAbs imm => Sys2Proof.Machine.execBranchIfNegativeAbs imm s
  | .branchIfNotZeroReg rX => Sys2Proof.Machine.execBranchIfNotZeroReg rX s
  | .branchIfNotZeroAbs imm => Sys2Proof.Machine.execBranchIfNotZeroAbs imm s
  | .branchIfNotNegativeReg rX => Sys2Proof.Machine.execBranchIfNotNegativeReg rX s
  | .branchIfNotNegativeAbs imm => Sys2Proof.Machine.execBranchIfNotNegativeAbs imm s
  | .parityCalcP0 rX => Sys2Proof.Machine.execParityCalcP0 rX s
  | .parityCalcP1 rX => Sys2Proof.Machine.execParityCalcP1 rX s
  | .parityCalcP2 rX => Sys2Proof.Machine.execParityCalcP2 rX s
  | .parityCalcP4 rX => Sys2Proof.Machine.execParityCalcP4 rX s
  | .parityCalcP8 rX => Sys2Proof.Machine.execParityCalcP8 rX s
  | .parityPackLSW rX => Sys2Proof.Machine.execParityPackLSW rX s
  | .parityPackMSW rX => Sys2Proof.Machine.execParityPackMSW rX s
  | .parityUnpackLSW rX => Sys2Proof.Machine.execParityUnpackLSW rX s

end Sys2Proof.Machine
end

