-- ==== Sys2Proof/Machine/Step.lean ====
section
/-! DEFINITION. One step: fetch, decode, execute one whole instruction (R230). -/

namespace Sys2Proof.Machine

/-- One step. With `done` = 1 the run is over and no step exists (R180, U13). Otherwise the word at `pc` is fetched
(R47), decoded (R75) and executed; a `pc` outside the program is the fault FetchOutOfProgram (R47, R201). -/
def step (s : State) : Host.Outcome State Fault Refusal :=
  match s.done with
  | true => .refused .runEnded
  | false =>
    match fetchWord s.prog s.pc with
    | some w => exec (decode w) s
    | none => .fault (.fetchOutOfProgram s.pc)

/-- `s` with the instruction whose bits are `w` where the next step fetches. Instruction memory is loaded from outside
the machine (R53, log 5): the word is put at `pc`; a negative `pc` becomes 0, addresses below `pc` that hold no word get
the termination word, and `done` becomes 0, without which no step fetches. An instruction has nine bits (R60), of which
those from `nbits` up are 0. -/
def State.withFetchWord (s : State) (nbits w : Nat) : State :=
  { s with
    prog := placeWord s.prog s.pc.toNat (BitVec.ofNat 9 (w % 2 ^ nbits))
    pc := (s.pc.toNat : Int)
    done := false }

end Sys2Proof.Machine
end

