-- ==== Sys2Proof/Machine/Assembler.lean ====
section
/-! DEFINITION. The Avernus assembler (R78 to R87, R190 to R199): statements, register names by alias, the nine
pseudo-instructions, the appended termination word, and what must be refused. A source file is a list of lines, each a
list of tokens whose numbers are already read: number bases, comments and labels are out of scope (R4(d), N15). Logs 20,
21, 25, 26. -/

namespace Sys2Proof.Machine

/-- A pseudo-instruction with its registers resolved (R190). -/
inductive Pseudo where
  /-- `Zero rX` (R191). -/
  | zero (rX : Reg)
  /-- `Set rX n` (R192). -/
  | set (rX : Reg) (imm : BitVec 4)
  /-- `Copy rX rY` (R193). -/
  | copy (rX rY : Reg)
  /-- `Swap rX rY` (R194). -/
  | swap (rX rY : Reg)
  /-- `RShift rX n` (R195). -/
  | rshift (rX : Reg) (n : Nat)
  /-- `LShift rX n` (R196). -/
  | lshift (rX : Reg) (n : Nat)
  /-- `Rotate rX n` (R197). -/
  | rotate (rX : Reg) (n : Nat)
  /-- `DoubleRShift rX rY n` (R198). -/
  | doubleRShift (rX rY : Reg) (n : Nat)
  /-- `DoubleLShift rX rY n` (R199). -/
  | doubleLShift (rX rY : Reg) (n : Nat)
  deriving DecidableEq, Repr

/-- The instructions `is`, `n` times over (R190: `n` = 0 expands to nothing). -/
def repeated (n : Nat) (is : List Instr) : List Instr :=
  match n with
  | 0 => []
  | k + 1 => is ++ repeated k is

/-- The machine instructions a pseudo-instruction stands for (R191 to R199). -/
def expand : Pseudo → List Instr
  | .zero rX => [.xor rX rX]
  | .set rX imm => [.xor rX rX, .addl rX imm]
  | .copy rX rY => [.xor rX rX, .add rX rY]
  | .swap rX rY => [.xor rX rY, .xor rY rX, .xor rX rY]
  | .rshift rX n => repeated n [.rshift rX]
  | .lshift rX n => repeated n [.lshift rX]
  | .rotate rX n => repeated n [.rotate rX]
  | .doubleRShift rX rY n => repeated n [.rshift rX, .dprsh rY]
  | .doubleLShift rX rY n => repeated n [.lshift rX, .dplsh rY]

/-- A token of a source line: a word (a mnemonic, a register name, an alias), a `#` immediate (R81), or a bare number
(R82, R190). -/
inductive Token where
  | word (w : String)
  | hash (n : Int)
  | num (n : Int)
  deriving DecidableEq, Repr

/-- Why the assembler refuses a source file. -/
inductive AsmError where
  /-- Two registers under one name: the source calls the result undefined (R84, U3). -/
  | ambiguousName (name : String)
  /-- A word that is neither `r0` to `r7` nor an alias. -/
  | unknownRegister (name : String)
  /-- A line that is no statement of R79 and no pseudo-instruction of R190. -/
  | unknownStatement
  /-- The data register of Load or Store is outside `r0` to `r3` (R87). -/
  | notLoadStorable (r : Reg)
  /-- The register of Addl or Set is outside `r4` to `r7` (R87). -/
  | notLongImmediate (r : Reg)
  /-- The immediate of Addl or Set is outside -8 to 7 (R87). -/
  | immediateRange (n : Int)
  /-- The target of an absolute branch is outside 0 to 7 (R87). -/
  | targetRange (n : Int)
  /-- A negative repeat count (R190). -/
  | negativeCount (n : Int)
  deriving DecidableEq, Repr

/-- One `Alias X name` line (R84): the register and its further name. -/
structure Directive where
  reg : Reg
  name : String
  deriving DecidableEq, Repr

/-- The register a plain register name `r0` to `r7` names (R78). -/
def plainRegister (name : String) : Option Reg :=
  if name = "r0" then some .r0 else if name = "r1" then some .r1
  else if name = "r2" then some .r2 else if name = "r3" then some .r3
  else if name = "r4" then some .r4 else if name = "r5" then some .r5
  else if name = "r6" then some .r6 else if name = "r7" then some .r7
  else none

/-- A name two directives give to different registers, if there is one (R84, U3). -/
def ambiguousName : List Directive → Option String
  | [] => none
  | d :: ds => if ds.any (fun e => e.name = d.name && e.reg != d.reg) then some d.name else ambiguousName ds

/-- The register a name stands for: aliases are replaced before assembly (R84), then plain names (R78). -/
def resolve (ds : List Directive) (name : String) : Except AsmError Reg :=
  match ds.find? (fun d => d.name = name) with
  | some d => .ok d.reg
  | none =>
    match plainRegister name with
    | some r => .ok r
    | none => .error (.unknownRegister name)

/-- A register that may be the data register of Load and Store, or the refusal (R87). -/
def requireLoadStorable (r : Reg) : Except AsmError Reg :=
  if r.loadStorable then .ok r else .error (.notLoadStorable r)

/-- A register that may be the register of Addl, or the refusal (R87). -/
def requireLongImmediate (r : Reg) : Except AsmError Reg :=
  if r.longImmediate then .ok r else .error (.notLongImmediate r)

/-- The four bits of an immediate in -8 to 7, or the refusal (R68, R87). -/
def requireImmediate (n : Int) : Except AsmError (BitVec 4) :=
  if -8 ≤ n ∧ n ≤ 7 then .ok (BitVec.ofInt 4 n) else .error (.immediateRange n)

/-- The three bits of a branch target in 0 to 7, or the refusal (R69, R87). -/
def requireTarget (n : Int) : Except AsmError (BitVec 3) :=
  if 0 ≤ n ∧ n ≤ 7 then .ok (BitVec.ofInt 3 n) else .error (.targetRange n)

/-- A repeat count, or the refusal of a negative one (R190). -/
def requireCount (n : Int) : Except AsmError Nat :=
  if 0 ≤ n then .ok n.toNat else .error (.negativeCount n)

/-- The one-register statements with a one-word mnemonic (R79) and `Zero` (R191). -/
def oneRegister (m : String) (rX : Reg) : Except AsmError (List Instr) :=
  if m = "LShift" then .ok [.lshift rX]
  else if m = "RShift" then .ok [.rshift rX]
  else if m = "Rotate" then .ok [.rotate rX]
  else if m = "DPLSh" then .ok [.dplsh rX]
  else if m = "DPRSh" then .ok [.dprsh rX]
  else if m = "Zero" then .ok (expand (.zero rX))
  else .error .unknownStatement

/-- The two-register statements (R79, R80: Load and Store take the address register first), `Copy` and `Swap`. -/
def twoRegisters (m : String) (r q : Reg) : Except AsmError (List Instr) :=
  if m = "Add" then .ok [.add r q]
  else if m = "Xor" then .ok [.xor r q]
  else if m = "And" then .ok [.and r q]
  else if m = "Load" then do let d ← requireLoadStorable q; .ok [.load r d]
  else if m = "Store" then do let d ← requireLoadStorable q; .ok [.store r d]
  else if m = "Copy" then .ok (expand (.copy r q))
  else if m = "Swap" then .ok (expand (.swap r q))
  else .error .unknownStatement

/-- `Branch <Cond>Reg rX` (R71, R82). -/
def branchRegister (form : String) (rX : Reg) : Except AsmError (List Instr) :=
  if form = "IfZeroReg" then .ok [.branchIfZeroReg rX]
  else if form = "IfNegativeReg" then .ok [.branchIfNegativeReg rX]
  else if form = "IfNotZeroReg" then .ok [.branchIfNotZeroReg rX]
  else if form = "IfNotNegativeReg" then .ok [.branchIfNotNegativeReg rX]
  else .error .unknownStatement

/-- `Branch <Cond>Abs X` (R71, R82). -/
def branchAbsolute (form : String) (imm : BitVec 3) : Except AsmError (List Instr) :=
  if form = "IfZeroAbs" then .ok [.branchIfZeroAbs imm]
  else if form = "IfNegativeAbs" then .ok [.branchIfNegativeAbs imm]
  else if form = "IfNotZeroAbs" then .ok [.branchIfNotZeroAbs imm]
  else if form = "IfNotNegativeAbs" then .ok [.branchIfNotNegativeAbs imm]
  else .error .unknownStatement

/-- `Parity <Op> rX` (R72, R83). -/
def parityStatement (op : String) (rX : Reg) : Except AsmError (List Instr) :=
  if op = "CalcP0" then .ok [.parityCalcP0 rX]
  else if op = "CalcP1" then .ok [.parityCalcP1 rX]
  else if op = "CalcP2" then .ok [.parityCalcP2 rX]
  else if op = "CalcP4" then .ok [.parityCalcP4 rX]
  else if op = "CalcP8" then .ok [.parityCalcP8 rX]
  else if op = "PackLSW" then .ok [.parityPackLSW rX]
  else if op = "PackMSW" then .ok [.parityPackMSW rX]
  else if op = "UnpackLSW" then .ok [.parityUnpackLSW rX]
  else .error .unknownStatement

/-- `Set rX n` and the repeated shifts: a register and a bare number (R192, R195 to R197). -/
def registerNumber (m : String) (rX : Reg) (n : Int) : Except AsmError (List Instr) :=
  if m = "Set" then do
    let r ← requireLongImmediate rX
    let imm ← requireImmediate n
    .ok (expand (.set r imm))
  else if m = "RShift" then do let k ← requireCount n; .ok (expand (.rshift rX k))
  else if m = "LShift" then do let k ← requireCount n; .ok (expand (.lshift rX k))
  else if m = "Rotate" then do let k ← requireCount n; .ok (expand (.rotate rX k))
  else .error .unknownStatement

/-- The double shifts: two registers and a bare number (R198, R199). -/
def doubleShift (m : String) (rX rY : Reg) (n : Int) : Except AsmError (List Instr) :=
  if m = "DoubleRShift" then do let k ← requireCount n; .ok (expand (.doubleRShift rX rY k))
  else if m = "DoubleLShift" then do let k ← requireCount n; .ok (expand (.doubleLShift rX rY k))
  else .error .unknownStatement

/-- One statement, to the machine instructions it stands for (R78 to R83, R190 to R199). The immediate of `Addl` must have its
`#`, and the number of `Set`, of a repeat count and of an absolute branch must have none: N15 leaves open whether `#` is
required (DESIGN CHOICE, log 25). An alias is looked up only where a register operand stands; a mnemonic, a condition or
operation word and a number are never replaced by one (DESIGN CHOICE, log 26). -/
def assembleLine (ds : List Directive) (line : List Token) : Except AsmError (List Instr) :=
  match line with
  | [.word m, .word a] => do let r ← resolve ds a; oneRegister m r
  | [.word m, .word a, .word b] =>
    if m = "Branch" then do let r ← resolve ds b; branchRegister a r
    else if m = "Parity" then do let r ← resolve ds b; parityStatement a r
    else do
      let r ← resolve ds a
      let q ← resolve ds b
      twoRegisters m r q
  | [.word m, .word a, .hash n] =>
    if m = "Addl" then do
      let r ← resolve ds a
      let d ← requireLongImmediate r
      let imm ← requireImmediate n
      .ok [.addl d imm]
    else .error .unknownStatement
  | [.word m, .word a, .num n] =>
    if m = "Branch" then do let imm ← requireTarget n; branchAbsolute a imm
    else do let r ← resolve ds a; registerNumber m r n
  | [.word m, .word a, .word b, .num n] => do
    let r ← resolve ds a
    let q ← resolve ds b
    doubleShift m r q n
  | _ => .error .unknownStatement

/-- All statements of a file, in order. -/
def assembleBody (ds : List Directive) : List (List Token) → Except AsmError (List Instr)
  | [] => .ok []
  | line :: rest => do
    let is ← assembleLine ds line
    let js ← assembleBody ds rest
    .ok (is ++ js)

/-- The `Alias X name` lines at the start of the file, and the lines after them (R84). -/
def takeDirectives : List (List Token) → Except AsmError (List Directive × List (List Token))
  | [] => .ok ([], [])
  | line :: rest =>
    match line with
    | [.word "Alias", .word x, .word name] =>
      match plainRegister x with
      | none => .error (.unknownRegister x)
      | some r => do
        let (ds, body) ← takeDirectives rest
        .ok (⟨r, name⟩ :: ds, body)
    | _ => .ok ([], line :: rest)

/-- The instructions of a body as words, with the termination word the assembler appends (R86). -/
def programOf (is : List Instr) : List IWord := is.map encode ++ [doneWord]

/-- Assemble a source file into a program (R84 to R87). -/
def assemble (source : List (List Token)) : Except AsmError (List IWord) := do
  let (ds, body) ← takeDirectives source
  match ambiguousName ds with
  | some name => .error (.ambiguousName name)
  | none => do
    let is ← assembleBody ds body
    .ok (programOf is)

end Sys2Proof.Machine
end

