-- ==== Sys2Proof/Safety.lean ====
section
/-! DEFINITION. The terms claims are stated in: launch premises (R221), the ways a run can go (R181, R203, R205), what an
instruction leaves alone, and the effect of a straight-line sequence. -/

namespace Sys2Proof.Machine

/-- A run at the point it has reached: the machine's state, and the fault the run has recorded if it ended abnormally (R201
records it). The record belongs to the run, not to the machine: R33 and R36 give State no place for it. Log 13. -/
structure Run where
  state : State
  fault : Option Fault
  deriving DecidableEq, Repr

/-- A run at its start: the state, nothing recorded. -/
def Run.start (s : State) : Run := ⟨s, none⟩

/-- One step of a run. A fault is recorded and changes no state (R203); a run that has recorded a fault or whose `done` is 1 is
over and stays as it is (R181). -/
def Run.next (r : Run) : Run :=
  match r.fault with
  | some _ => r
  | none =>
    match step r.state with
    | .next t => ⟨t, none⟩
    | .fault f => { r with fault := some f }
    | .refused _ => r

/-- `k` steps of a run. -/
def Run.steps : Nat → Run → Run
  | 0, r => r
  | k + 1, r => Run.steps k r.next

/-- LaunchPc0 (R221). -/
def LaunchPc0 (s : State) : Prop := s.pc = 0

/-- LaunchNotDone (R221). -/
def LaunchNotDone (s : State) : Prop := s.done = false

/-- ProgWellFormed (R5, R182, R221): 1 to 2^PC_WIDTH words, the last the termination word. -/
def ProgWellFormed (prog : List IWord) : Prop :=
  1 ≤ prog.length ∧ prog.length ≤ 2 ^ Config.pcWidth ∧ prog.getLast? = some doneWord

/-- NoFaultRecorded (R221), of the point a run has reached: it has recorded no fault so far. As a launch premise it says nothing
of the steps to come, in which a fault may still be recorded (R203). -/
def NoFaultRecorded (r : Run) : Prop := r.fault = none

/-- A launch (R37, R220), by the four premises of R221: `pc` = 0, `done` = 0, a well-formed program, no fault recorded; and
canonical data memory (log 4). Registers, flags and data cells are whatever they are. -/
def Launched (r : Run) : Prop :=
  LaunchPc0 r.state ∧ LaunchNotDone r.state ∧ ProgWellFormed r.state.prog ∧ NoFaultRecorded r ∧ r.state.dmem.wf = true

/-- An invariant of every run from a launch state: data memory is canonical (log 4), the program is well formed (R182), `pc`
is where one instruction inside the program can lead (R26, R141, R142), and `done` is 1 only at a termination word (R180). -/
def RunInv (s : State) : Prop :=
  s.dmem.wf = true ∧ ProgWellFormed s.prog ∧ -128 ≤ s.pc ∧ s.pc < (s.prog.length : Int) + 127 ∧
    (s.done = true → fetchWord s.prog s.pc = some doneWord)

/-- `k` steps, stopping at the first that gives no next state (the host's `Core.run` of this machine). -/
def runSteps : Nat → State → Outcome
  | 0, s => .next s
  | k + 1, s =>
    match step s with
    | .next t => runSteps k t
    | .fault f => .fault f
    | .refused r => .refused r

/-- The run from `s` ends normally in `t` (R181): some number of steps reaches a state with `done` = 1. -/
def EndsNormally (s t : State) : Prop := ∃ k, runSteps k s = .next t ∧ t.done = true

/-- The run from `s` ends abnormally with the fault `f` (R181, R203). -/
def EndsAbnormally (s : State) (f : Fault) : Prop := ∃ k, runSteps k s = .fault f

/-- The run from `s` is a hang (R181, R205): it goes on for ever and `done` stays 0. -/
def Hangs (s : State) : Prop := ∀ k, ∃ t, runSteps k s = .next t ∧ t.done = false

/-- The run from `s` never faults: no number of steps ends in a fault. A property to prove of a program, no launch premise. -/
def NeverFaults (s : State) : Prop := ∀ k f, runSteps k s ≠ .fault f

/-- Every register but `d` holds what it held. -/
def RegsKeptBut (d : Reg) (s t : State) : Prop := ∀ q, q ≠ d → t.reg q = s.reg q

/-- Every register holds what it held. -/
def RegsKept (s t : State) : Prop := ∀ q, t.reg q = s.reg q

/-- Every data cell, by its address, holds what it held. -/
def CellsKept (s t : State) : Prop := ∀ a, t.dmem.read a = s.dmem.read a

/-- `Z` and `N` as SetZN(v) leaves them (R10, R29): Zero says that all eight bits are 0, Negative is bit 7. -/
def FlagsFrom (v : Byte) (t : State) : Prop := (t.z = true ↔ v = 0#8) ∧ t.n = v.getLsbD 7

/-- What every instruction with an ALU result does besides SC: the result `v` stands in `d`, every other register, all data
memory, instruction memory and `done` are kept, Z and N follow `v`, and `pc` is one further (R26, R29, R100, R130, R163). -/
def WritesResult (d : Reg) (v : Byte) (s t : State) : Prop :=
  t.reg d = v ∧ RegsKeptBut d s t ∧ FlagsFrom v t ∧ CellsKept s t ∧ t.prog = s.prog ∧ t.done = s.done ∧ t.pc = s.pc + 1

/-- What a branch keeps: registers, data memory, instruction memory, SC and `done` (R140). -/
def BranchKeeps (s t : State) : Prop :=
  RegsKept s t ∧ CellsKept s t ∧ t.prog = s.prog ∧ t.sc = s.sc ∧ t.done = s.done

/-- Execute a list of instructions one after the other, stopping at the first that gives no next state. -/
def execAll : List Instr → State → Outcome
  | [], s => .next s
  | i :: is, s =>
    match exec i s with
    | .next t => execAll is t
    | .fault f => .fault f
    | .refused r => .refused r

/-- What a macro's expansion keeps besides the registers it names: data memory, instruction memory and `done`. -/
def MacroKeeps (s t : State) : Prop := CellsKept s t ∧ t.prog = s.prog ∧ t.done = s.done

/-- Do something to the next state of an outcome; a fault or a refusal stays as it is. -/
def mapNext (f : State → State) : Outcome → Outcome
  | .next t => .next (f t)
  | .fault r => .fault r
  | .refused r => .refused r

end Sys2Proof.Machine
end

