-- ==== Sys2Proof/Certificates/Slice0/Obligations.lean ====
section
/-! DEFINITION. The statements for the provers. Each docstring names the rules of spec/ it formalises, and the spec's own
decisions (D rows of 92_eei_decisions.md) and log entries it rests on. -/

open Sys2Proof Sys2Proof.Machine

/-! ### Encoding -/

/-- R60 to R75: a word decodes to `i` exactly when `i` has an encoding and the word is it. So the 512 words and the
well-formed instructions are in one-to-one correspondence. -/
def Obligations.DecodeExactlyInvertsEncode : Prop :=
  ∀ (w : IWord) (i : Instr), decode w = i ↔ (i.wellFormed = true ∧ encode i = w)

/-- R75 and Part B7 of 95_test_vectors.md: one word of each format and group, and the words beside the termination word. -/
def Obligations.SampleWordsDecode : Prop :=
  decode 0b000000001#9 = .add .r0 .r1 ∧ decode 0b001000001#9 = .xor .r0 .r1 ∧ decode 0b010000001#9 = .and .r0 .r1 ∧
  decode 0b011010101#9 = .load .r5 .r1 ∧ decode 0b011011101#9 = .store .r5 .r1 ∧
  decode 0b100111111#9 = .addl .r7 0b1111#4 ∧ decode 0b101011110#9 = .dprsh .r3 ∧
  decode 0b101111110#9 = .dprsh .r7 ∧ decode 0b101111111#9 = .done ∧ decode 0b101110111#9 = .undefMode111 .r6 ∧
  decode 0b110110001#9 = .branchIfZeroAbs 6#3 ∧ decode 0b110111111#9 = .branchIfNotNegativeAbs 7#3 ∧
  decode 0b111101110#9 = .parityPackMSW .r5 ∧ decode 0b111111111#9 = .parityUnpackLSW .r7

/-- R66, R67: the data register of a Load or Store word is the register whose address is 0 and then the field `[5:4]`, one
of `r0` to `r3`; the register of an Addl word is the one whose address is 1 and then the field, one of `r4` to `r7`; the
address register of Load and Store is the full field `[2:0]`. -/
def Obligations.TruncatedRegisterFields : Prop :=
  ∀ (dt : BitVec 2) (a : BitVec 3) (imm : BitVec 4),
    (∃ rA rD, decode (0b011#3 ++ dt ++ 0b0#1 ++ a) = .load rA rD ∧ regBits rA = a ∧ regBits rD = 0b0#1 ++ dt ∧
      rD ∈ [Reg.r0, .r1, .r2, .r3]) ∧
    (∃ rA rD, decode (0b011#3 ++ dt ++ 0b1#1 ++ a) = .store rA rD ∧ regBits rA = a ∧ regBits rD = 0b0#1 ++ dt ∧
      rD ∈ [Reg.r0, .r1, .r2, .r3]) ∧
    (∃ rD, decode (0b100#3 ++ dt ++ imm) = .addl rD imm ∧ regBits rD = 0b1#1 ++ dt ∧ rD ∈ [Reg.r4, .r5, .r6, .r7])

/-- R70, R71, R72: the three mode tables. The blank rows of the Shift group decode to their undefined rows, but for the
termination word. -/
def Obligations.ModeTables : Prop :=
  ∀ x : Reg, ∀ k : BitVec 3,
    (decode (0b101#3 ++ regBits x ++ 0b000#3) = .lshift x ∧ decode (0b101#3 ++ regBits x ++ 0b001#3) = .undefMode001 x ∧
      decode (0b101#3 ++ regBits x ++ 0b010#3) = .rshift x ∧ decode (0b101#3 ++ regBits x ++ 0b011#3) = .rotate x ∧
      decode (0b101#3 ++ regBits x ++ 0b100#3) = .dplsh x ∧ decode (0b101#3 ++ regBits x ++ 0b101#3) = .undefMode101 x ∧
      decode (0b101#3 ++ regBits x ++ 0b110#3) = .dprsh x ∧
      decode (0b101#3 ++ regBits x ++ 0b111#3) = if x = .r7 then .done else .undefMode111 x) ∧
    (decode (0b110#3 ++ regBits x ++ 0b000#3) = .branchIfZeroReg x ∧ decode (0b110#3 ++ k ++ 0b001#3) = .branchIfZeroAbs k ∧
      decode (0b110#3 ++ regBits x ++ 0b010#3) = .branchIfNegativeReg x ∧
      decode (0b110#3 ++ k ++ 0b011#3) = .branchIfNegativeAbs k ∧
      decode (0b110#3 ++ regBits x ++ 0b100#3) = .branchIfNotZeroReg x ∧
      decode (0b110#3 ++ k ++ 0b101#3) = .branchIfNotZeroAbs k ∧
      decode (0b110#3 ++ regBits x ++ 0b110#3) = .branchIfNotNegativeReg x ∧
      decode (0b110#3 ++ k ++ 0b111#3) = .branchIfNotNegativeAbs k) ∧
    (decode (0b111#3 ++ regBits x ++ 0b000#3) = .parityCalcP0 x ∧ decode (0b111#3 ++ regBits x ++ 0b001#3) = .parityCalcP1 x ∧
      decode (0b111#3 ++ regBits x ++ 0b010#3) = .parityCalcP2 x ∧ decode (0b111#3 ++ regBits x ++ 0b011#3) = .parityCalcP4 x ∧
      decode (0b111#3 ++ regBits x ++ 0b100#3) = .parityCalcP8 x ∧ decode (0b111#3 ++ regBits x ++ 0b101#3) = .parityPackLSW x ∧
      decode (0b111#3 ++ regBits x ++ 0b110#3) = .parityPackMSW x ∧
      decode (0b111#3 ++ regBits x ++ 0b111#3) = .parityUnpackLSW x)

/-- R74: the termination word is the single word `101111111`. -/
def Obligations.TerminationWordAlone : Prop := ∀ w : IWord, decode w = .done ↔ w = 0b101111111#9

/-! ### Register-type, memory-type, immediate-type -/

/-- R100, R101: Add. The wrap modulo 256 is the spec's decision D9, the reading of Z and N its decision D14, the advance of
`pc` its decision D6. -/
def Obligations.AddResult : Prop :=
  ∀ (d r : Reg) (s : State), decode (0b000#3 ++ regBits d ++ regBits r) = .add d r ∧
    ∃ t, exec (.add d r) s = .next t ∧ WritesResult d (BitVec.ofNat 8 ((s.reg d).toNat + (s.reg r).toNat)) s t ∧
      t.sc = s.sc ∧ t.draws = s.draws

/-- R100, R102: Xor. Z and N after decision D14, `pc` after D6. -/
def Obligations.XorResult : Prop :=
  ∀ (d r : Reg) (s : State), decode (0b001#3 ++ regBits d ++ regBits r) = .xor d r ∧
    ∃ t, exec (.xor d r) s = .next t ∧ WritesResult d (s.reg d ^^^ s.reg r) s t ∧ t.sc = s.sc ∧ t.draws = s.draws

/-- R100, R103: And. Z and N after decision D14, `pc` after D6. -/
def Obligations.AndResult : Prop :=
  ∀ (d r : Reg) (s : State), decode (0b010#3 ++ regBits d ++ regBits r) = .and d r ∧
    ∃ t, exec (.and d r) s = .next t ∧ WritesResult d (s.reg d &&& s.reg r) s t ∧ t.sc = s.sc ∧ t.draws = s.draws

/-- R110, R111: Load, also when the address register is the data register. Nothing is said of Z and N, which R30 (decision
D15) leaves unspecified. -/
def Obligations.LoadResult : Prop :=
  ∀ (a d : Reg) (s : State), effectiveAddress a s = s.reg a ∧
    ∃ t, exec (.load a d) s = .next t ∧ t.reg d = s.dmem.read (effectiveAddress a s).toNat ∧ RegsKeptBut d s t ∧
      CellsKept s t ∧ t.prog = s.prog ∧ t.sc = s.sc ∧ t.done = s.done ∧ t.pc = s.pc + 1

/-- R110, R112: Store. One cell receives the data register, every other cell and every register is kept. Nothing is said
of Z and N, which R30 (decision D15) leaves unspecified. -/
def Obligations.StoreResult : Prop :=
  ∀ (a d : Reg) (s : State), effectiveAddress a s = s.reg a ∧
    ∃ t, exec (.store a d) s = .next t ∧ t.dmem.read (effectiveAddress a s).toNat = s.reg d ∧
      (∀ b, b ≠ (effectiveAddress a s).toNat → t.dmem.read b = s.dmem.read b) ∧
      RegsKept s t ∧ t.prog = s.prog ∧ t.sc = s.sc ∧ t.done = s.done ∧ t.pc = s.pc + 1

/-- R54(a): a Load from a cell after a Store to that cell, with nothing between them, returns the value stored. -/
def Obligations.StoreThenLoadReturnsValue : Prop :=
  ∀ (a d e : Reg) (s : State), ∃ t u, exec (.store a d) s = .next t ∧ exec (.load a e) t = .next u ∧ u.reg e = s.reg d

/-- R68, R120: Addl. The wrap is decision D9, the two's-complement immediate D10, Z and N D14, `pc` D6. -/
def Obligations.AddlResult : Prop :=
  ∀ (d : Reg) (imm : BitVec 4) (s : State),
    ∃ t, exec (.addl d imm) s = .next t ∧ WritesResult d (BitVec.ofInt 8 ((s.reg d).toInt + imm.toInt)) s t ∧
      t.sc = s.sc ∧ t.draws = s.draws

/-! ### Shift group -/

/-- R130, R131: LShift. The 0 shifted in is decision D11. -/
def Obligations.LShiftResult : Prop :=
  ∀ (x : Reg) (s : State),
    ∃ t, exec (.lshift x) s = .next t ∧ WritesResult x (s.reg x <<< 1) s t ∧ t.sc = (s.reg x).getLsbD 7 ∧ t.draws = s.draws

/-- R130, R132: RShift. The 0 shifted in is decision D11. -/
def Obligations.RShiftResult : Prop :=
  ∀ (x : Reg) (s : State),
    ∃ t, exec (.rshift x) s = .next t ∧ WritesResult x (s.reg x >>> 1) s t ∧ t.sc = (s.reg x).getLsbD 0 ∧ t.draws = s.draws

/-- R130, R133: Rotate, to the right, SC unchanged (decision D12). -/
def Obligations.RotateResult : Prop :=
  ∀ (x : Reg) (s : State),
    ∃ t, exec (.rotate x) s = .next t ∧ WritesResult x ((s.reg x).rotateRight 1) s t ∧ t.sc = s.sc ∧ t.draws = s.draws

/-- R130, R134: DPLSh. That SC is not written is decision D13. -/
def Obligations.DPLShResult : Prop :=
  ∀ (x : Reg) (s : State),
    ∃ t, exec (.dplsh x) s = .next t ∧ WritesResult x ((s.reg x <<< 1) ||| (if s.sc then 0x01#8 else 0x00#8)) s t ∧
      t.sc = s.sc ∧ t.draws = s.draws

/-- R130, R135: DPRSh (90_conflicts.md C2). That SC is not written is decision D13. -/
def Obligations.DPRShResult : Prop :=
  ∀ (x : Reg) (s : State),
    ∃ t, exec (.dprsh x) s = .next t ∧ WritesResult x ((s.reg x >>> 1) ||| (if s.sc then 0x80#8 else 0x00#8)) s t ∧
      t.sc = s.sc ∧ t.draws = s.draws

/-- R73, R136: the three undefined rows are the fault UndefinedInstruction with the word and its `pc`, from every state; and among
the 512 words exactly the 23 of R73 are that fault (decision D16, log 12). -/
def Obligations.UndefinedWordsFault : Prop :=
  (∀ (x : Reg) (s : State),
    exec (.undefMode001 x) s = .fault (.undefinedInstruction (0b101#3 ++ regBits x ++ 0b001#3) s.pc) ∧
    exec (.undefMode101 x) s = .fault (.undefinedInstruction (0b101#3 ++ regBits x ++ 0b101#3) s.pc) ∧
    exec (.undefMode111 x) s = .fault (.undefinedInstruction (0b101#3 ++ regBits x ++ 0b111#3) s.pc)) ∧
  ∀ (w : IWord) (s : State),
    exec (decode w) s = .fault (.undefinedInstruction w s.pc) ↔
      (w.extractLsb' 6 3 = 0b101#3 ∧
        (w.extractLsb' 0 3 = 0b001#3 ∨ w.extractLsb' 0 3 = 0b101#3 ∨
          (w.extractLsb' 0 3 = 0b111#3 ∧ w.extractLsb' 3 3 ≠ 0b111#3)))

/-! ### Branch group -/

/-- R140, R141, R143, R145, R147, R149: the four relative branches, taken and not taken. The base (the branch's own address)
and the signed reading are decision D7 (log 10). Nothing is said of Z and N after (R30, decision D15). -/
def Obligations.RelativeBranches : Prop :=
  ∀ (x : Reg) (s : State),
    (∃ t, exec (.branchIfZeroReg x) s = .next t ∧ BranchKeeps s t ∧
      t.pc = if s.z = true then s.pc + (s.reg x).toInt else s.pc + 1) ∧
    (∃ t, exec (.branchIfNegativeReg x) s = .next t ∧ BranchKeeps s t ∧
      t.pc = if s.n = true then s.pc + (s.reg x).toInt else s.pc + 1) ∧
    (∃ t, exec (.branchIfNotZeroReg x) s = .next t ∧ BranchKeeps s t ∧
      t.pc = if s.z = false then s.pc + (s.reg x).toInt else s.pc + 1) ∧
    (∃ t, exec (.branchIfNotNegativeReg x) s = .next t ∧ BranchKeeps s t ∧
      t.pc = if s.n = false then s.pc + (s.reg x).toInt else s.pc + 1)

/-- R140, R142, R144, R146, R148, R150: the four absolute branches, taken and not taken. The immediate reading is decision D8
(90_conflicts.md C4). Nothing is said of Z and N after (R30, decision D15). -/
def Obligations.AbsoluteBranches : Prop :=
  ∀ (k : BitVec 3) (s : State),
    (∃ t, exec (.branchIfZeroAbs k) s = .next t ∧ BranchKeeps s t ∧ t.pc = if s.z = true then (k.toNat : Int) else s.pc + 1) ∧
    (∃ t, exec (.branchIfNegativeAbs k) s = .next t ∧ BranchKeeps s t ∧
      t.pc = if s.n = true then (k.toNat : Int) else s.pc + 1) ∧
    (∃ t, exec (.branchIfNotZeroAbs k) s = .next t ∧ BranchKeeps s t ∧
      t.pc = if s.z = false then (k.toNat : Int) else s.pc + 1) ∧
    (∃ t, exec (.branchIfNotNegativeAbs k) s = .next t ∧ BranchKeeps s t ∧
      t.pc = if s.n = false then (k.toNat : Int) else s.pc + 1)

/-! ### Parity group -/

/-- R163, R164: CalcP0, on every layout, whatever PARITY_P0 is (decision D20, log 8). -/
def Obligations.CalcP0Result : Prop :=
  ∀ (x : Reg) (s : State),
    ∃ t, exec (.parityCalcP0 x) s = .next t ∧
      WritesResult x (if parityP0 (s.reg .r0) (s.reg .r1) then 0b00000001#8 else 0#8) s t ∧ t.sc = s.sc ∧ t.draws = s.draws

/-- R163, R165 to R168: CalcP1, CalcP2, CalcP4, CalcP8 when `x[1][7:3]` = 0, whatever the parity functions are (decision D20,
log 8). The premise says `x[1]` is below 8. -/
def Obligations.CalcParityResults : Prop :=
  ∀ (x : Reg) (s : State), (s.reg .r1).toNat < 8 →
    (∃ t, exec (.parityCalcP1 x) s = .next t ∧
      WritesResult x (if parityP1 (s.reg .r0) (s.reg .r1) then 0b00000010#8 else 0#8) s t ∧ t.sc = s.sc ∧ t.draws = s.draws) ∧
    (∃ t, exec (.parityCalcP2 x) s = .next t ∧
      WritesResult x (if parityP2 (s.reg .r0) (s.reg .r1) then 0b00000100#8 else 0#8) s t ∧ t.sc = s.sc ∧ t.draws = s.draws) ∧
    (∃ t, exec (.parityCalcP4 x) s = .next t ∧
      WritesResult x (if parityP4 (s.reg .r0) (s.reg .r1) then 0b00010000#8 else 0#8) s t ∧ t.sc = s.sc ∧ t.draws = s.draws) ∧
    (∃ t, exec (.parityCalcP8 x) s = .next t ∧
      WritesResult x (if parityP8 (s.reg .r0) (s.reg .r1) then 0b00000001#8 else 0#8) s t ∧ t.sc = s.sc ∧ t.draws = s.draws)

/-- R163, R169: PackLSW, on every layout: bits 3 to 1 of `x[0]` go to bits 7 to 5, bit 0 to bit 3, the parity places are 0. -/
def Obligations.PackLSWResult : Prop :=
  ∀ (x : Reg) (s : State),
    ∃ t, exec (.parityPackLSW x) s = .next t ∧
      WritesResult x (((s.reg .r0 &&& 0x0E#8) <<< 4) ||| ((s.reg .r0 &&& 0x01#8) <<< 3)) s t ∧ t.sc = s.sc ∧ t.draws = s.draws

/-- R163, R170: PackMSW when `x[1][7:3]` = 0: bits 10 to 4 of `x[1] ‖ x[0]` go to bits 7 to 1, bit 0 is 0 (log 24). -/
def Obligations.PackMSWResult : Prop :=
  ∀ (x : Reg) (s : State), (s.reg .r1).toNat < 8 →
    ∃ t, exec (.parityPackMSW x) s = .next t ∧
      WritesResult x ((((s.reg .r1 ++ s.reg .r0 : BitVec 16) >>> 3).setWidth 8) &&& 0xFE#8) s t ∧
      t.sc = s.sc ∧ t.draws = s.draws

/-- R163, R171: UnpackLSW writes what UNPACK_LSW gives, whatever that function is (decision D21, log 9). -/
def Obligations.UnpackLSWResult : Prop :=
  ∀ (x : Reg) (s : State),
    ∃ t, exec (.parityUnpackLSW x) s = .next t ∧ WritesResult x (unpackLSW (s.reg .r0) (s.reg .r1)) s t ∧
      t.sc = s.sc ∧ t.draws = s.draws

/-- R172: when `x[1][7:3]` ≠ 0 the five instructions that expect the raw layout still run: nothing is said of the value
written, Z and N follow it, and everything else is as in R163 (decision D22, log 7). -/
def Obligations.ViolatedLayoutStillRuns : Prop :=
  ∀ (x : Reg) (s : State), 8 ≤ (s.reg .r1).toNat →
    ∀ i ∈ [Instr.parityCalcP1 x, .parityCalcP2 x, .parityCalcP4 x, .parityCalcP8 x, .parityPackMSW x],
      ∃ t, exec i s = .next t ∧ WritesResult x (t.reg x) s t ∧ t.sc = s.sc ∧ t.draws = s.draws + 1

/-- R23, R163: the operand register of a parity instruction is written only: unless it is `r0` or `r1`, what it held before
makes no difference to the outcome. -/
def Obligations.ParityOperandWrittenOnly : Prop :=
  ∀ (x : Reg) (v : Byte) (s : State), x ≠ .r0 → x ≠ .r1 →
    ∀ i ∈ [Instr.parityCalcP0 x, .parityCalcP1 x, .parityCalcP2 x, .parityCalcP4 x, .parityCalcP8 x, .parityPackLSW x,
        .parityPackMSW x, .parityUnpackLSW x],
      exec i (s.setReg x v) = exec i s

/-- R173: from any one state the packed halves are put together without carries, whatever the parity functions are: the
results share no set bit, so adding them and xoring them give the same word. -/
def Obligations.PackedHalvesCombine : Prop :=
  ∀ (x0 x1 : Byte) (p1 p2 p4 p8 : Bool),
    packMSWPicture x0 x1 + p8Picture p8 = packMSWPicture x0 x1 ^^^ p8Picture p8 ∧
    packLSWPicture x0 + p4Picture p4 + p2Picture p2 + p1Picture p1 =
      packLSWPicture x0 ^^^ p4Picture p4 ^^^ p2Picture p2 ^^^ p1Picture p1 ∧
    (packLSWPicture x0 ^^^ p4Picture p4 ^^^ p2Picture p2 ^^^ p1Picture p1).getLsbD 0 = false

/-- R161, R162, R171 and the check of program P4 in 95_test_vectors.md, on the spec's DEFAULT functions (general knowledge G1;
decisions D20, D21), which no meaning uses: for every 11-bit datum, a packed word made with the defaults has even parity over
the places whose number has bit k set, for each of the four k, and over all sixteen; and the default UNPACK_LSW recovers
`b4..b1` from it. -/
def Obligations.DefaultParityFunctions : Prop :=
  ∀ (x0 x1 : Byte), x1.toNat < 8 →
    let msw := packMSWPicture x0 x1 ^^^ p8Picture (hammingP8 x0 x1)
    let low := packLSWPicture x0 ^^^ p4Picture (hammingP4 x0 x1) ^^^ p2Picture (hammingP2 x0 x1) ^^^ p1Picture (hammingP1 x0 x1)
    let lsw := low ^^^ p0Picture (hammingP0 low msw)
    let w : BitVec 16 := msw ++ lsw
    xorBits w [1, 3, 5, 7, 9, 11, 13, 15] = false ∧ xorBits w [2, 3, 6, 7, 10, 11, 14, 15] = false ∧
    xorBits w [4, 5, 6, 7, 12, 13, 14, 15] = false ∧ xorBits w [8, 9, 10, 11, 12, 13, 14, 15] = false ∧
    xorBits w [0, 1, 2, 3, 4, 5, 6, 7, 8, 9, 10, 11, 12, 13, 14, 15] = false ∧
    defaultUnpackLSW lsw msw = x0 &&& 0x0F#8

/-! ### Termination -/

/-- R180: the termination word raises `done` and keeps `pc`, registers, SC, data memory and instruction memory (decision D17,
log 11). Nothing is said of Z and N. -/
def Obligations.DoneResult : Prop :=
  ∀ s : State, ∃ t, exec .done s = .next t ∧ t.done = true ∧ t.pc = s.pc ∧ RegsKept s t ∧ CellsKept s t ∧
    t.prog = s.prog ∧ t.sc = s.sc

/-- R31: a step leaves `done` at 1 exactly when the word it executed is the termination word. -/
def Obligations.DoneRaisedOnlyByTermination : Prop :=
  ∀ s t : State, step s = .next t → (t.done = true ↔ fetchWord s.prog s.pc = some 0b101111111#9)

/-! ### Flags -/

/-- R28: no instruction but LShift and RShift changes SC (decisions D13, D28). -/
def Obligations.ShiftCarryWriters : Prop :=
  ∀ (i : Instr) (s t : State), exec i s = .next t → (∀ x, i ≠ .lshift x ∧ i ≠ .rshift x) → t.sc = s.sc

/-- R28: SC is read by DPLSh and DPRSh alone. Changing SC before any other instruction changes nothing after it but SC, and not
even SC after LShift and RShift. -/
def Obligations.ShiftCarryReaders : Prop :=
  ∀ (i : Instr) (s : State) (b : Bool), (∀ x, i ≠ .dplsh x ∧ i ≠ .dprsh x) →
    mapNext (fun t => t.setSC b) (exec i (s.setSC b)) = mapNext (fun t => t.setSC b) (exec i s) ∧
    ((∃ x, i = .lshift x ∨ i = .rshift x) → exec i (s.setSC b) = exec i s)

/-- R29, R30, R140: Z and N are read by branches alone. Changing them before any other instruction changes nothing in its
outcome. -/
def Obligations.ZeroNegativeReadOnlyByBranches : Prop :=
  ∀ (i : Instr) (s : State) (a b : Bool), i.isBranch = false → exec i { s with z := a, n := b } = exec i s

/-- The model's choice, log 6, for R12 and R30 (decision D15): after Load, Store, each Branch and the termination word, Z and N
are the next two free values, and no later draw sees them again. -/
def Obligations.UnspecifiedFlagsAreFreshDraws : Prop :=
  ∀ (i : Instr) (s t : State), (i.isBranch = true ∨ i = .done ∨ (∃ a d, i = .load a d ∨ i = .store a d)) →
    exec i s = .next t → t.z = Config.freeFlag s.draws ∧ t.n = Config.freeFlag (s.draws + 1) ∧ t.draws = s.draws + 2

/-! ### The machine -/

/-- R47, R75, R230: a step of a machine that is not done executes the instruction the word at `pc` decodes to. The step adds
nothing around it. -/
def Obligations.StepRunsDecoded : Prop :=
  ∀ (s : State) (w : IWord), s.done = false → 0 ≤ s.pc → s.prog[s.pc.toNat]? = some w → step s = exec (decode w) s

/-- R47, R201: a fetch outside `0 .. L-1` is the fault FetchOutOfProgram with the address (decision D29, log 13). -/
def Obligations.FetchOutsideFaults : Prop :=
  ∀ s : State, s.done = false → (s.pc < 0 ∨ (s.prog.length : Int) ≤ s.pc) → step s = .fault (.fetchOutOfProgram s.pc)

/-- R201, R202, R203 and U13: the only ways a step stops. A refusal means `done` was 1, and `done` = 1 is always refused (log 11);
a fault means `done` was 0 and either `pc` was outside the program or the word there is undefined; no step that stops raises
`done` or has a next state. -/
def Obligations.HowAStepStops : Prop :=
  ∀ s : State, (∀ r, step s = .refused r ↔ (s.done = true ∧ r = .runEnded)) ∧
    (∀ f, step s = .fault f → s.done = false ∧
      ((f = .fetchOutOfProgram s.pc ∧ ¬ (0 ≤ s.pc ∧ s.pc < s.prog.length)) ∨
        (∃ w, s.prog[s.pc.toNat]? = some w ∧ 0 ≤ s.pc ∧ (decode w).isUndefined = true ∧
          f = .undefinedInstruction w s.pc)))

/-- R26, R200: every instruction that is not an undefined row completes from every state; outside the Branch group `pc` moves to
the next instruction, and the termination word keeps it (decision D6). -/
def Obligations.EveryInstructionCompletes : Prop :=
  ∀ (i : Instr) (s : State), i.isUndefined = false →
    ∃ t, exec i s = .next t ∧ (i.isBranch = false → t.pc = if i = .done then s.pc else s.pc + 1)

/-- R34, R40 and log 4: a step keeps data memory in its canonical form: rising addresses below 256 and no entry that an unlisted
cell would read as. -/
def Obligations.StepKeepsMemoryCanonical : Prop :=
  ∀ s t : State, s.dmem.wf = true → step s = .next t → t.dmem.wf = true

/-- R26, R180, R182 and log 4: the invariant of every run from a launch state is kept by a step: data memory canonical, the program
well formed, `pc` where one instruction of the program can lead, `done` only at a termination word. -/
def Obligations.StepKeepsRunInv : Prop :=
  ∀ s t : State, RunInv s → step s = .next t → RunInv t

/-- R37, R220, R221: the state of every launch meets the run invariant, whatever its registers, flags and data cells. -/
def Obligations.LaunchMeetsRunInv : Prop := ∀ r : Run, Launched r → RunInv r.state

/-- R37, R212, R220 (decision D18): at reset `pc` = 0, `done` = 0 and data memory is canonical; the host's launch of a program
leaves `pc` = 0, `done` = 0, the two memories as the host wrote them, and registers and flags as they were. -/
def Obligations.ResetAndLaunch : Prop :=
  (State.reset.pc = 0 ∧ State.reset.done = false ∧ State.reset.dmem.wf = true) ∧
  ∀ (prog : List IWord) (dmem : Memory) (s : State),
    (launch prog dmem s).pc = 0 ∧ (launch prog dmem s).done = false ∧ (launch prog dmem s).prog = prog ∧
    (launch prog dmem s).dmem = dmem ∧ RegsKept s (launch prog dmem s) ∧ (launch prog dmem s).z = s.z ∧
    (launch prog dmem s).n = s.n ∧ (launch prog dmem s).sc = s.sc

/-- R35, R51, R54(d): no step changes instruction memory. -/
def Obligations.ProgramNeverChanges : Prop := ∀ s t : State, step s = .next t → t.prog = s.prog

/-- R54(d): no instruction other than Store changes data memory. -/
def Obligations.OnlyStoreChangesMemory : Prop :=
  ∀ (i : Instr) (s t : State), (∀ a d, i ≠ .store a d) → exec i s = .next t → CellsKept s t

/-- R182: in a well-formed program, sequential execution never steps past the last word: after a step from inside the program
that did not raise `done` and was no branch, `pc` is inside the program again. -/
def Obligations.SequentialStaysInProgram : Prop :=
  ∀ (s t : State) (w : IWord), ProgWellFormed s.prog → fetchWord s.prog s.pc = some w → (decode w).isBranch = false →
    step s = .next t → t.done = false → 0 ≤ t.pc ∧ t.pc < s.prog.length

/-- R181, R203, R205: a run from a state with `done` = 0 ends normally, or ends abnormally, or is a hang, and only one of them. -/
def Obligations.RunsGoOneWay : Prop :=
  ∀ s : State, s.done = false →
    ((∃ t, EndsNormally s t) ∨ (∃ f, EndsAbnormally s f) ∨ Hangs s) ∧
    ¬ ((∃ t, EndsNormally s t) ∧ (∃ f, EndsAbnormally s f)) ∧
    ¬ ((∃ t, EndsNormally s t) ∧ Hangs s) ∧ ¬ ((∃ f, EndsAbnormally s f) ∧ Hangs s)

/-! ### The assembler -/

/-- R86: a program whose statements expand to `n` machine instructions assembles to `n + 1` words, the last `0x17F`, the first
`n` those instructions' words; and none of those instructions is the termination word, which has no assembly statement. -/
def Obligations.AssemblerAppendsTermination : Prop :=
  ∀ (source body : List (List Token)) (ds : List Directive) (is : List Instr),
    takeDirectives source = .ok (ds, body) → ambiguousName ds = none → assembleBody ds body = .ok is →
    ∃ ws, assemble source = .ok ws ∧ ws.length = is.length + 1 ∧ ws[is.length]? = some 0x17F#9 ∧
      (∀ k (h : k < is.length), ws[k]? = some (encode is[k])) ∧ ∀ i ∈ is, i ≠ .done

/-- R76, R86, R87, R136, R183: what the assembler emits decodes back to well-formed instructions, none of them undefined and none
the termination word but the last. -/
def Obligations.AssembledWordsDecodeBack : Prop :=
  ∀ (source : List (List Token)) (ws : List IWord), assemble source = .ok ws →
    ∃ is : List Instr, ws.map decode = is ++ [.done] ∧
      ∀ i ∈ is, i.wellFormed = true ∧ i.isUndefined = false ∧ i ≠ .done

/-- R87 (decision D16, U12): the statements with no encoding are refused, not truncated. -/
def Obligations.UnencodableStatementsRefused : Prop :=
  ∀ (ds : List Directive) (a b : String) (r q : Reg) (n : Int), resolve ds a = .ok r → resolve ds b = .ok q →
    (q.loadStorable = false →
      assembleLine ds [.word "Load", .word a, .word b] = .error (.notLoadStorable q) ∧
      assembleLine ds [.word "Store", .word a, .word b] = .error (.notLoadStorable q)) ∧
    (r.longImmediate = false →
      assembleLine ds [.word "Addl", .word a, .hash n] = .error (.notLongImmediate r) ∧
      assembleLine ds [.word "Set", .word a, .num n] = .error (.notLongImmediate r)) ∧
    (r.longImmediate = true → (n < -8 ∨ 7 < n) →
      assembleLine ds [.word "Addl", .word a, .hash n] = .error (.immediateRange n) ∧
      assembleLine ds [.word "Set", .word a, .num n] = .error (.immediateRange n)) ∧
    (∀ form, (n < 0 ∨ 7 < n) → assembleLine ds [.word "Branch", .word form, .num n] = .error (.targetRange n))

/-- R84 (U3, decision D30): a file whose directives give one name to two registers is refused; otherwise a name stands for the
register any directive gives it, and several names for one register are fine. -/
def Obligations.AliasResolution : Prop :=
  ∀ (source body : List (List Token)) (ds : List Directive), takeDirectives source = .ok (ds, body) →
    ((∃ d ∈ ds, ∃ e ∈ ds, d.name = e.name ∧ d.reg ≠ e.reg) → ∃ name, assemble source = .error (.ambiguousName name)) ∧
    ((∀ d ∈ ds, ∀ e ∈ ds, d.name = e.name → d.reg = e.reg) → ∀ d ∈ ds, resolve ds d.name = .ok d.reg)

/-! ### Macros -/

/-- R191, R192: Zero and Set (the immediate's coding is decision D10, Z and N D14). -/
def Obligations.ZeroAndSetMacros : Prop :=
  ∀ (x : Reg) (imm : BitVec 4) (s : State),
    (∃ t, execAll (expand (.zero x)) s = .next t ∧ t.reg x = 0#8 ∧ RegsKeptBut x s t ∧ t.z = true ∧ t.n = false ∧
      t.sc = s.sc ∧ MacroKeeps s t ∧ t.pc = s.pc + 1) ∧
    (∃ t, execAll (expand (.set x imm)) s = .next t ∧ t.reg x = BitVec.ofInt 8 imm.toInt ∧ RegsKeptBut x s t ∧
      (t.z = true ↔ imm.toInt = 0) ∧ (t.n = true ↔ imm.toInt < 0) ∧ t.sc = s.sc ∧ MacroKeeps s t ∧ t.pc = s.pc + 2)

/-- R193: Copy of a different register copies it; Copy of the register itself zeroes it. Z and N follow the result. -/
def Obligations.CopyMacro : Prop :=
  ∀ (x y : Reg) (s : State),
    ∃ t, execAll (expand (.copy x y)) s = .next t ∧ t.reg x = (if x = y then 0#8 else s.reg y) ∧ RegsKeptBut x s t ∧
      FlagsFrom (t.reg x) t ∧ t.sc = s.sc ∧ MacroKeeps s t ∧ t.pc = s.pc + 2

/-- R194: Swap of two different registers exchanges them, using no third; Swap of a register with itself zeroes it. Z and N follow
the final `x[X]`. -/
def Obligations.SwapMacro : Prop :=
  ∀ (x y : Reg) (s : State),
    ∃ t, execAll (expand (.swap x y)) s = .next t ∧
      (if x = y then t.reg x = 0#8 else t.reg x = s.reg y ∧ t.reg y = s.reg x) ∧
      (∀ q, q ≠ x → q ≠ y → t.reg q = s.reg q) ∧ FlagsFrom (t.reg x) t ∧ t.sc = s.sc ∧ MacroKeeps s t ∧ t.pc = s.pc + 3

/-- R195: RShift rX n shifts right by n, zeros in, and leaves in SC the last bit shifted out: the old bit n-1 for 1 to 8, 0 above;
n = 0 changes nothing (decisions D11, D30). -/
def Obligations.RepeatedRShift : Prop :=
  ∀ (x : Reg) (n : Nat) (s : State),
    ∃ t, execAll (expand (.rshift x n)) s = .next t ∧ t.reg x = s.reg x >>> n ∧ RegsKeptBut x s t ∧
      t.sc = (if n = 0 then s.sc else if n ≤ 8 then (s.reg x).getLsbD (n - 1) else false) ∧
      (if n = 0 then t = s else FlagsFrom (t.reg x) t) ∧ MacroKeeps s t ∧ t.pc = s.pc + n

/-- R196: LShift rX n shifts left by n modulo 256, zeros in, and leaves in SC the last bit shifted out: the old bit 8-n for 1 to 8,
0 above; n = 0 changes nothing (decisions D11, D30). -/
def Obligations.RepeatedLShift : Prop :=
  ∀ (x : Reg) (n : Nat) (s : State),
    ∃ t, execAll (expand (.lshift x n)) s = .next t ∧ t.reg x = s.reg x <<< n ∧ RegsKeptBut x s t ∧
      t.sc = (if n = 0 then s.sc else if n ≤ 8 then (s.reg x).getLsbD (8 - n) else false) ∧
      (if n = 0 then t = s else FlagsFrom (t.reg x) t) ∧ MacroKeeps s t ∧ t.pc = s.pc + n

/-- R197: Rotate rX n rotates right by n mod 8 places and keeps SC (decisions D12, D30). -/
def Obligations.RepeatedRotate : Prop :=
  ∀ (x : Reg) (n : Nat) (s : State),
    ∃ t, execAll (expand (.rotate x n)) s = .next t ∧ t.reg x = (s.reg x).rotateRight (n % 8) ∧ RegsKeptBut x s t ∧
      t.sc = s.sc ∧ (if n = 0 then t = s else FlagsFrom (t.reg x) t) ∧ MacroKeeps s t ∧ t.pc = s.pc + n

/-- R198: DoubleRShift of two different registers shifts the 16-bit value `x[X] ‖ x[Y]` right by n, zeros in; SC is the last bit
that left `x[X]`; Z and N follow the final `x[Y]` (decisions D11, D13, D30). -/
def Obligations.DoubleRShiftIsSixteenBitShift : Prop :=
  ∀ (x y : Reg) (n : Nat) (s : State), x ≠ y →
    ∃ t, execAll (expand (.doubleRShift x y n)) s = .next t ∧
      (t.reg x ++ t.reg y : BitVec 16) = (s.reg x ++ s.reg y : BitVec 16) >>> n ∧
      (∀ q, q ≠ x → q ≠ y → t.reg q = s.reg q) ∧
      t.sc = (if n = 0 then s.sc else (s.reg x).getLsbD (n - 1)) ∧
      (if n = 0 then t = s else FlagsFrom (t.reg y) t) ∧ MacroKeeps s t ∧ t.pc = s.pc + 2 * n

/-- R199: DoubleLShift of two different registers shifts the 16-bit value `x[Y] ‖ x[X]` left by n modulo 2^16; SC is the last bit
that left `x[X]`; Z and N follow the final `x[Y]` (decisions D11, D13, D30). -/
def Obligations.DoubleLShiftIsSixteenBitShift : Prop :=
  ∀ (x y : Reg) (n : Nat) (s : State), x ≠ y →
    ∃ t, execAll (expand (.doubleLShift x y n)) s = .next t ∧
      (t.reg y ++ t.reg x : BitVec 16) = (s.reg y ++ s.reg x : BitVec 16) <<< n ∧
      (∀ q, q ≠ x → q ≠ y → t.reg q = s.reg q) ∧
      t.sc = (if n = 0 then s.sc else if n ≤ 8 then (s.reg x).getLsbD (8 - n) else false) ∧
      (if n = 0 then t = s else FlagsFrom (t.reg y) t) ∧ MacroKeeps s t ∧ t.pc = s.pc + 2 * n

/-! ### The record of a fault -/

/-- R201, R203, R221 (decision D16, log 13): at a point where a run has recorded no fault, its next step records `f` exactly when
the machine's step is the fault `f`; then `done` is 0, and at every later point the record and the state are those. A run ends
abnormally with `f` exactly when some number of its steps records `f`, and never faults exactly when none records one. -/
def Obligations.FaultIsRecordedForGood : Prop :=
  ∀ r : Run, NoFaultRecorded r →
    (∀ f, r.next.fault = some f ↔ step r.state = .fault f) ∧
    (∀ f, step r.state = .fault f → r.state.done = false ∧ ∀ k, Run.steps (k + 1) r = ⟨r.state, some f⟩) ∧
    (∀ f, EndsAbnormally r.state f ↔ ∃ k, (Run.steps k r).fault = some f) ∧
    (NeverFaults r.state ↔ ∀ k, NoFaultRecorded (Run.steps k r))
end

