-- ==== Sys2Proof/Laws/State.lean ====
section
/-! SUPPORT. One lemma per field per update of State, each true by unfolding, so that no proof unfolds an update; and the
register file's read after write. -/

namespace Sys2Proof.Machine

theorem RegFile.get_set (f : RegFile) (r q : Reg) (v : Byte) :
    (f.set r v).get q = if q = r then v else f.get q := by
  cases r <;> cases q <;> rfl

@[simp] theorem State.setReg_reg (s : State) (r q : Reg) (v : Byte) :
    (s.setReg r v).reg q = if q = r then v else s.reg q := RegFile.get_set s.regs r q v

@[simp] theorem State.setReg_regs (s : State) (r : Reg) (v : Byte) : (s.setReg r v).regs = s.regs.set r v := rfl
@[simp] theorem State.setReg_pc (s : State) (r : Reg) (v : Byte) : (s.setReg r v).pc = s.pc := rfl
@[simp] theorem State.setReg_z (s : State) (r : Reg) (v : Byte) : (s.setReg r v).z = s.z := rfl
@[simp] theorem State.setReg_n (s : State) (r : Reg) (v : Byte) : (s.setReg r v).n = s.n := rfl
@[simp] theorem State.setReg_sc (s : State) (r : Reg) (v : Byte) : (s.setReg r v).sc = s.sc := rfl
@[simp] theorem State.setReg_done (s : State) (r : Reg) (v : Byte) : (s.setReg r v).done = s.done := rfl
@[simp] theorem State.setReg_dmem (s : State) (r : Reg) (v : Byte) : (s.setReg r v).dmem = s.dmem := rfl
@[simp] theorem State.setReg_prog (s : State) (r : Reg) (v : Byte) : (s.setReg r v).prog = s.prog := rfl
@[simp] theorem State.setReg_draws (s : State) (r : Reg) (v : Byte) : (s.setReg r v).draws = s.draws := rfl

@[simp] theorem State.memWrite_reg (s : State) (ea v : Byte) (q : Reg) : (s.memWrite ea v).reg q = s.reg q := rfl
@[simp] theorem State.memWrite_regs (s : State) (ea v : Byte) : (s.memWrite ea v).regs = s.regs := rfl
@[simp] theorem State.memWrite_pc (s : State) (ea v : Byte) : (s.memWrite ea v).pc = s.pc := rfl
@[simp] theorem State.memWrite_z (s : State) (ea v : Byte) : (s.memWrite ea v).z = s.z := rfl
@[simp] theorem State.memWrite_n (s : State) (ea v : Byte) : (s.memWrite ea v).n = s.n := rfl
@[simp] theorem State.memWrite_sc (s : State) (ea v : Byte) : (s.memWrite ea v).sc = s.sc := rfl
@[simp] theorem State.memWrite_done (s : State) (ea v : Byte) : (s.memWrite ea v).done = s.done := rfl
@[simp] theorem State.memWrite_dmem (s : State) (ea v : Byte) : (s.memWrite ea v).dmem = s.dmem.write ea.toNat v := rfl
@[simp] theorem State.memWrite_prog (s : State) (ea v : Byte) : (s.memWrite ea v).prog = s.prog := rfl
@[simp] theorem State.memWrite_draws (s : State) (ea v : Byte) : (s.memWrite ea v).draws = s.draws := rfl

@[simp] theorem State.advance_reg (s : State) (q : Reg) : (s.advance).reg q = s.reg q := rfl
@[simp] theorem State.advance_regs (s : State) : (s.advance).regs = s.regs := rfl
@[simp] theorem State.advance_pc (s : State) : (s.advance).pc = s.pc + 1 := rfl
@[simp] theorem State.advance_z (s : State) : (s.advance).z = s.z := rfl
@[simp] theorem State.advance_n (s : State) : (s.advance).n = s.n := rfl
@[simp] theorem State.advance_sc (s : State) : (s.advance).sc = s.sc := rfl
@[simp] theorem State.advance_done (s : State) : (s.advance).done = s.done := rfl
@[simp] theorem State.advance_dmem (s : State) : (s.advance).dmem = s.dmem := rfl
@[simp] theorem State.advance_prog (s : State) : (s.advance).prog = s.prog := rfl
@[simp] theorem State.advance_draws (s : State) : (s.advance).draws = s.draws := rfl

@[simp] theorem State.jump_reg (s : State) (t : Int) (q : Reg) : (s.jump t).reg q = s.reg q := rfl
@[simp] theorem State.jump_regs (s : State) (t : Int) : (s.jump t).regs = s.regs := rfl
@[simp] theorem State.jump_pc (s : State) (t : Int) : (s.jump t).pc = t := rfl
@[simp] theorem State.jump_z (s : State) (t : Int) : (s.jump t).z = s.z := rfl
@[simp] theorem State.jump_n (s : State) (t : Int) : (s.jump t).n = s.n := rfl
@[simp] theorem State.jump_sc (s : State) (t : Int) : (s.jump t).sc = s.sc := rfl
@[simp] theorem State.jump_done (s : State) (t : Int) : (s.jump t).done = s.done := rfl
@[simp] theorem State.jump_dmem (s : State) (t : Int) : (s.jump t).dmem = s.dmem := rfl
@[simp] theorem State.jump_prog (s : State) (t : Int) : (s.jump t).prog = s.prog := rfl
@[simp] theorem State.jump_draws (s : State) (t : Int) : (s.jump t).draws = s.draws := rfl

@[simp] theorem State.raiseDone_reg (s : State) (q : Reg) : (s.raiseDone).reg q = s.reg q := rfl
@[simp] theorem State.raiseDone_regs (s : State) : (s.raiseDone).regs = s.regs := rfl
@[simp] theorem State.raiseDone_pc (s : State) : (s.raiseDone).pc = s.pc := rfl
@[simp] theorem State.raiseDone_z (s : State) : (s.raiseDone).z = s.z := rfl
@[simp] theorem State.raiseDone_n (s : State) : (s.raiseDone).n = s.n := rfl
@[simp] theorem State.raiseDone_sc (s : State) : (s.raiseDone).sc = s.sc := rfl
@[simp] theorem State.raiseDone_done (s : State) : (s.raiseDone).done = true := rfl
@[simp] theorem State.raiseDone_dmem (s : State) : (s.raiseDone).dmem = s.dmem := rfl
@[simp] theorem State.raiseDone_prog (s : State) : (s.raiseDone).prog = s.prog := rfl
@[simp] theorem State.raiseDone_draws (s : State) : (s.raiseDone).draws = s.draws := rfl

@[simp] theorem State.setZN_reg (s : State) (v : Byte) (q : Reg) : (s.setZN v).reg q = s.reg q := rfl
@[simp] theorem State.setZN_regs (s : State) (v : Byte) : (s.setZN v).regs = s.regs := rfl
@[simp] theorem State.setZN_pc (s : State) (v : Byte) : (s.setZN v).pc = s.pc := rfl
@[simp] theorem State.setZN_z (s : State) (v : Byte) : (s.setZN v).z = zeroFlagOf v := rfl
@[simp] theorem State.setZN_n (s : State) (v : Byte) : (s.setZN v).n = negativeFlagOf v := rfl
@[simp] theorem State.setZN_sc (s : State) (v : Byte) : (s.setZN v).sc = s.sc := rfl
@[simp] theorem State.setZN_done (s : State) (v : Byte) : (s.setZN v).done = s.done := rfl
@[simp] theorem State.setZN_dmem (s : State) (v : Byte) : (s.setZN v).dmem = s.dmem := rfl
@[simp] theorem State.setZN_prog (s : State) (v : Byte) : (s.setZN v).prog = s.prog := rfl
@[simp] theorem State.setZN_draws (s : State) (v : Byte) : (s.setZN v).draws = s.draws := rfl

@[simp] theorem State.drawZN_reg (s : State) (q : Reg) : (s.drawZN).reg q = s.reg q := rfl
@[simp] theorem State.drawZN_regs (s : State) : (s.drawZN).regs = s.regs := rfl
@[simp] theorem State.drawZN_pc (s : State) : (s.drawZN).pc = s.pc := rfl
@[simp] theorem State.drawZN_z (s : State) : (s.drawZN).z = Config.freeFlag s.draws := rfl
@[simp] theorem State.drawZN_n (s : State) : (s.drawZN).n = Config.freeFlag (s.draws + 1) := rfl
@[simp] theorem State.drawZN_sc (s : State) : (s.drawZN).sc = s.sc := rfl
@[simp] theorem State.drawZN_done (s : State) : (s.drawZN).done = s.done := rfl
@[simp] theorem State.drawZN_dmem (s : State) : (s.drawZN).dmem = s.dmem := rfl
@[simp] theorem State.drawZN_prog (s : State) : (s.drawZN).prog = s.prog := rfl
@[simp] theorem State.drawZN_draws (s : State) : (s.drawZN).draws = s.draws + 2 := rfl

@[simp] theorem State.countDraw_reg (s : State) (q : Reg) : (s.countDraw).reg q = s.reg q := rfl
@[simp] theorem State.countDraw_regs (s : State) : (s.countDraw).regs = s.regs := rfl
@[simp] theorem State.countDraw_pc (s : State) : (s.countDraw).pc = s.pc := rfl
@[simp] theorem State.countDraw_z (s : State) : (s.countDraw).z = s.z := rfl
@[simp] theorem State.countDraw_n (s : State) : (s.countDraw).n = s.n := rfl
@[simp] theorem State.countDraw_sc (s : State) : (s.countDraw).sc = s.sc := rfl
@[simp] theorem State.countDraw_done (s : State) : (s.countDraw).done = s.done := rfl
@[simp] theorem State.countDraw_dmem (s : State) : (s.countDraw).dmem = s.dmem := rfl
@[simp] theorem State.countDraw_prog (s : State) : (s.countDraw).prog = s.prog := rfl
@[simp] theorem State.countDraw_draws (s : State) : (s.countDraw).draws = s.draws + 1 := rfl

@[simp] theorem State.setSC_reg (s : State) (b : Bool) (q : Reg) : (s.setSC b).reg q = s.reg q := rfl
@[simp] theorem State.setSC_regs (s : State) (b : Bool) : (s.setSC b).regs = s.regs := rfl
@[simp] theorem State.setSC_pc (s : State) (b : Bool) : (s.setSC b).pc = s.pc := rfl
@[simp] theorem State.setSC_z (s : State) (b : Bool) : (s.setSC b).z = s.z := rfl
@[simp] theorem State.setSC_n (s : State) (b : Bool) : (s.setSC b).n = s.n := rfl
@[simp] theorem State.setSC_sc (s : State) (b : Bool) : (s.setSC b).sc = b := rfl
@[simp] theorem State.setSC_done (s : State) (b : Bool) : (s.setSC b).done = s.done := rfl
@[simp] theorem State.setSC_dmem (s : State) (b : Bool) : (s.setSC b).dmem = s.dmem := rfl
@[simp] theorem State.setSC_prog (s : State) (b : Bool) : (s.setSC b).prog = s.prog := rfl
@[simp] theorem State.setSC_draws (s : State) (b : Bool) : (s.setSC b).draws = s.draws := rfl

end Sys2Proof.Machine
end

