-- ==== Sys2Proof/Laws/Memory.lean ====
section
/-! SUPPORT. Data memory: read after write, and the canonical form kept by every memory operation. -/

namespace Sys2Proof.Machine

theorem Memory.read_erase_self (m : Memory) (a : Nat) : (m.erase a).read a = unlistedCell := by
  induction m with
  | nil => rfl
  | cons c m ih =>
    obtain ⟨b, v⟩ := c
    by_cases h : a = b <;> simp [Memory.erase, Memory.read, h]
    · subst h; exact ih
    · exact ih

theorem Memory.read_erase_other (m : Memory) {a b : Nat} (h : b ≠ a) : (m.erase a).read b = m.read b := by
  induction m with
  | nil => rfl
  | cons c m ih =>
    obtain ⟨k, v⟩ := c
    by_cases hk : a = k
    · subst hk; simp [Memory.erase, Memory.read, h, ih]
    · simp [Memory.erase, Memory.read, hk, ih]

/-- Placing an entry for an address the list does not hold. -/
theorem Memory.read_place_erase (m : Memory) (a b : Nat) (v : Byte) :
    ((m.erase a).place a v).read b = if b = a then v else (m.erase a).read b := by
  induction m with
  | nil => by_cases h : b = a <;> simp [Memory.erase, Memory.place, Memory.read, h]
  | cons c m ih =>
    obtain ⟨k, w⟩ := c
    by_cases hk : a = k
    · subst hk; simpa [Memory.erase] using ih
    · simp only [Memory.erase, hk, if_false, Memory.place]
      split
      · by_cases h : b = a <;> simp [Memory.read, h]
      · by_cases h : b = k
        · subst h; simp [Memory.read, Ne.symm hk]
        · simpa [Memory.read, h] using ih

/-- Read after write, at every address and in every list (R41, R54). -/
theorem Memory.read_write (m : Memory) (a b : Nat) (v : Byte) :
    (m.write a v).read b = if b = a then v else m.read b := by
  unfold Memory.write
  split
  · by_cases h : b = a
    · subst h; simp [Memory.read_erase_self, *]
    · simp [Memory.read_erase_other m h, h]
  · rw [Memory.read_place_erase]
    by_cases h : b = a
    · simp [h]
    · simp [h, Memory.read_erase_other m h]

theorem Memory.canonicalFrom_mono {m : Memory} {lo hi : Nat} (h : lo ≤ hi) (hm : m.canonicalFrom hi = true) :
    m.canonicalFrom lo = true := by
  cases m with
  | nil => rfl
  | cons c m =>
    simp only [Memory.canonicalFrom, Bool.and_eq_true, decide_eq_true_eq] at hm ⊢
    exact ⟨⟨⟨by omega, hm.1.1.2⟩, hm.1.2⟩, hm.2⟩

theorem Memory.canonicalFrom_erase {m : Memory} {lo : Nat} (a : Nat) (hm : m.canonicalFrom lo = true) :
    (m.erase a).canonicalFrom lo = true := by
  induction m generalizing lo with
  | nil => rfl
  | cons c m ih =>
    obtain ⟨b, v⟩ := c
    simp only [Memory.canonicalFrom, Bool.and_eq_true, decide_eq_true_eq] at hm
    by_cases h : a = b
    · simp only [Memory.erase, h, if_true]
      exact Memory.canonicalFrom_mono (by omega) (h ▸ ih hm.2)
    · simp only [Memory.erase, h, if_false, Memory.canonicalFrom, Bool.and_eq_true, decide_eq_true_eq]
      exact ⟨hm.1, ih hm.2⟩

theorem Memory.canonicalFrom_place_erase {m : Memory} {lo a : Nat} {v : Byte} (hlo : lo ≤ a) (ha : a < 256)
    (hv : v ≠ unlistedCell) (hm : m.canonicalFrom lo = true) : ((m.erase a).place a v).canonicalFrom lo = true := by
  induction m generalizing lo with
  | nil => simp [Memory.erase, Memory.place, Memory.canonicalFrom, hlo, ha, hv]
  | cons c m ih =>
    obtain ⟨b, w⟩ := c
    simp only [Memory.canonicalFrom, Bool.and_eq_true, decide_eq_true_eq] at hm
    by_cases h : a = b
    · simp only [Memory.erase, h, if_true]
      exact h ▸ ih hlo (Memory.canonicalFrom_mono (by omega) hm.2)
    · simp only [Memory.erase, h, if_false, Memory.place]
      split
      · simp only [Memory.canonicalFrom, Bool.and_eq_true, decide_eq_true_eq]
        exact ⟨⟨⟨hlo, ha⟩, hv⟩, ⟨⟨by omega, hm.1.1.2⟩, hm.1.2⟩, Memory.canonicalFrom_erase a hm.2⟩
      · simp only [Memory.canonicalFrom, Bool.and_eq_true, decide_eq_true_eq]
        exact ⟨hm.1, ih (by omega) hm.2⟩

/-- A write at an address of data memory keeps the canonical form. -/
theorem Memory.wf_write {m : Memory} {a : Nat} {v : Byte} (ha : a < 256) (hm : m.wf = true) :
    (m.write a v).wf = true := by
  unfold Memory.write
  split
  · exact Memory.canonicalFrom_erase a hm
  · exact Memory.canonicalFrom_place_erase (Nat.zero_le a) ha (by assumption) hm

theorem State.memWrite_wf {s : State} (ea v : Byte) (h : s.dmem.wf = true) : (s.memWrite ea v).dmem.wf = true :=
  Memory.wf_write ea.isLt h

theorem State.reset_dmem_wf : State.reset.dmem.wf = true := rfl

end Sys2Proof.Machine
end

