-- ==== Sys2Proof/Laws/Ops.lean ====
section
/-! SUPPORT. What each shared operation can do, said once: the end of an instruction with an ALU result, a branch, and one
step. -/

namespace Sys2Proof.Machine

theorem zeroFlagOf_iff (v : Byte) : zeroFlagOf v = true ↔ v = 0#8 := by simp [zeroFlagOf]

/-- `writeResult` answers a next state with the result written and everything it does not name kept. -/
theorem writeResult_spec (d : Reg) (v : Byte) (s : State) :
    ∃ t, writeResult d v s = .next t ∧ WritesResult d v s t ∧ t.sc = s.sc ∧ t.draws = s.draws := by
  refine ⟨_, rfl, ⟨by simp, ?_, ⟨by simp [zeroFlagOf_iff], by simp [negativeFlagOf]⟩, ?_, rfl, rfl, rfl⟩, rfl, rfl⟩
  · intro q hq; simp [hq]
  · intro a; rfl

/-- `branchTo` answers a next state at the target or the next address, with everything but Z and N kept. -/
theorem branchTo_spec (taken : Bool) (target : Int) (s : State) :
    ∃ t, branchTo taken target s = .next t ∧ BranchKeeps s t ∧ t.pc = if taken then target else s.pc + 1 := by
  cases taken <;> exact ⟨_, rfl, ⟨fun _ => rfl, fun _ => rfl, rfl, rfl, rfl⟩, rfl⟩

/-- `writeIfRawLayout` writes the result, or a fresh draw when `x[1]` breaks the raw layout (R172). -/
theorem writeIfRawLayout_spec (d : Reg) (v : Byte) (s : State) :
    ∃ t, writeIfRawLayout d v s = .next t ∧ t.sc = s.sc ∧
      WritesResult d (if rawLayout s.msw then v else Config.freeByte s.draws) s t := by
  unfold writeIfRawLayout
  split
  · obtain ⟨t, h, hw, hsc, -⟩ := writeResult_spec d v s
    exact ⟨t, h, hsc, by simpa using hw⟩
  · obtain ⟨t, h, hw, hsc, -⟩ := writeResult_spec d (Config.freeByte s.draws) s.countDraw
    exact ⟨t, h, hsc, hw⟩

/-- Every way a step can go. -/
theorem step_cases (s : State) :
    (s.done = true ∧ step s = .refused .runEnded) ∨
    (s.done = false ∧ fetchWord s.prog s.pc = none ∧ step s = .fault (.fetchOutOfProgram s.pc)) ∨
    (s.done = false ∧ ∃ w, fetchWord s.prog s.pc = some w ∧ step s = exec (decode w) s) := by
  unfold step
  cases hd : s.done with
  | true => exact .inl ⟨rfl, rfl⟩
  | false =>
    cases hf : fetchWord s.prog s.pc with
    | none => exact .inr (.inl ⟨rfl, rfl, rfl⟩)
    | some w => exact .inr (.inr ⟨rfl, w, rfl, rfl⟩)

/-- `runSteps` is the run of the host's interface. -/
theorem runSteps_eq_core_run (k : Nat) (s : State) : runSteps k s = Host.Core.run Sys2Proof.core k s := by
  induction k generalizing s with
  | zero => rfl
  | succ k ih =>
    have hc : Sys2Proof.core.step s = step s := rfl
    cases h : step s with
    | next t => rw [h] at hc; simpa [runSteps, Host.Core.run, h, hc] using ih t
    | fault f => rw [h] at hc; simp [runSteps, Host.Core.run, h, hc]; rfl
    | refused r => rw [h] at hc; simp [runSteps, Host.Core.run, h, hc]; rfl

/-- A word is fetched exactly at the addresses `0 .. L-1` (R47). -/
theorem fetchWord_eq_some_iff (prog : List IWord) (a : Int) (w : IWord) :
    fetchWord prog a = some w ↔ 0 ≤ a ∧ prog[a.toNat]? = some w := by
  cases a with
  | ofNat k => simp [fetchWord]
  | negSucc k => simp [fetchWord]

theorem fetchWord_eq_none_iff (prog : List IWord) (a : Int) :
    fetchWord prog a = none ↔ a < 0 ∨ (prog.length : Int) ≤ a := by
  cases a with
  | ofNat k => simp [fetchWord]
  | negSucc k => simp [fetchWord, Int.negSucc_lt_zero]

end Sys2Proof.Machine
end

