-- ==== Sys2Proof/Laws/PerInstr.lean ====
section
/-! SUPPORT. Facts about every instruction as syntax, one lemma per constructor. -/

namespace Sys2Proof.Laws.OpcodeField

/-- Bits `[8:6]` of an instruction's word are the opcode of its row in the opcode map (R60, R61). -/
def Statement (i : Instr) : Prop := opcodeField (encode i) = opcodeOf i

theorem add (rD : Reg) (rS : Reg) : Statement (.add rD rS) := by cases rD <;> cases rS <;> rfl

theorem xor (rD : Reg) (rS : Reg) : Statement (.xor rD rS) := by cases rD <;> cases rS <;> rfl

theorem and (rD : Reg) (rS : Reg) : Statement (.and rD rS) := by cases rD <;> cases rS <;> rfl

theorem load (rA : Reg) (rD : Reg) : Statement (.load rA rD) := by cases rA <;> cases rD <;> rfl

theorem store (rA : Reg) (rD : Reg) : Statement (.store rA rD) := by cases rA <;> cases rD <;> rfl

theorem addl (rD : Reg) (imm : BitVec 4) : Statement (.addl rD imm) := by revert imm; unfold Statement; cases rD <;> decide

theorem lshift (rX : Reg) : Statement (.lshift rX) := by cases rX <;> rfl

theorem rshift (rX : Reg) : Statement (.rshift rX) := by cases rX <;> rfl

theorem rotate (rX : Reg) : Statement (.rotate rX) := by cases rX <;> rfl

theorem dplsh (rX : Reg) : Statement (.dplsh rX) := by cases rX <;> rfl

theorem dprsh (rX : Reg) : Statement (.dprsh rX) := by cases rX <;> rfl

theorem done : Statement .done := rfl

theorem undefMode001 (rX : Reg) : Statement (.undefMode001 rX) := by cases rX <;> rfl

theorem undefMode101 (rX : Reg) : Statement (.undefMode101 rX) := by cases rX <;> rfl

theorem undefMode111 (rX : Reg) : Statement (.undefMode111 rX) := by cases rX <;> rfl

theorem branchIfZeroReg (rX : Reg) : Statement (.branchIfZeroReg rX) := by cases rX <;> rfl

theorem branchIfZeroAbs (imm : BitVec 3) : Statement (.branchIfZeroAbs imm) := by revert imm; unfold Statement; decide

theorem branchIfNegativeReg (rX : Reg) : Statement (.branchIfNegativeReg rX) := by cases rX <;> rfl

theorem branchIfNegativeAbs (imm : BitVec 3) : Statement (.branchIfNegativeAbs imm) := by revert imm; unfold Statement; decide

theorem branchIfNotZeroReg (rX : Reg) : Statement (.branchIfNotZeroReg rX) := by cases rX <;> rfl

theorem branchIfNotZeroAbs (imm : BitVec 3) : Statement (.branchIfNotZeroAbs imm) := by revert imm; unfold Statement; decide

theorem branchIfNotNegativeReg (rX : Reg) : Statement (.branchIfNotNegativeReg rX) := by cases rX <;> rfl

theorem branchIfNotNegativeAbs (imm : BitVec 3) : Statement (.branchIfNotNegativeAbs imm) := by revert imm; unfold Statement; decide

theorem parityCalcP0 (rX : Reg) : Statement (.parityCalcP0 rX) := by cases rX <;> rfl

theorem parityCalcP1 (rX : Reg) : Statement (.parityCalcP1 rX) := by cases rX <;> rfl

theorem parityCalcP2 (rX : Reg) : Statement (.parityCalcP2 rX) := by cases rX <;> rfl

theorem parityCalcP4 (rX : Reg) : Statement (.parityCalcP4 rX) := by cases rX <;> rfl

theorem parityCalcP8 (rX : Reg) : Statement (.parityCalcP8 rX) := by cases rX <;> rfl

theorem parityPackLSW (rX : Reg) : Statement (.parityPackLSW rX) := by cases rX <;> rfl

theorem parityPackMSW (rX : Reg) : Statement (.parityPackMSW rX) := by cases rX <;> rfl

theorem parityUnpackLSW (rX : Reg) : Statement (.parityUnpackLSW rX) := by cases rX <;> rfl

end Sys2Proof.Laws.OpcodeField
end

