-- ==== Sys2Proof/Laws/Run.lean ====
section
/-! SUPPORT. What a step of a run can do: go on with the machine, record a fault, or stay where it is. -/

namespace Sys2Proof.Machine

@[simp] theorem Run.start_state (s : State) : (Run.start s).state = s := rfl
@[simp] theorem Run.start_fault (s : State) : (Run.start s).fault = none := rfl
@[simp] theorem Run.steps_zero (r : Run) : Run.steps 0 r = r := rfl
@[simp] theorem Run.steps_succ (k : Nat) (r : Run) : Run.steps (k + 1) r = Run.steps k r.next := rfl

theorem Run.next_of_recorded {r : Run} {f : Fault} (h : r.fault = some f) : r.next = r := by
  simp [Run.next, h]

theorem Run.next_of_next {r : Run} {t : State} (h : r.fault = none) (hs : step r.state = .next t) : r.next = .start t := by
  simp [Run.next, h, hs, Run.start]

theorem Run.next_of_fault {r : Run} {f : Fault} (h : r.fault = none) (hs : step r.state = .fault f) :
    r.next = ⟨r.state, some f⟩ := by
  simp [Run.next, h, hs]

theorem Run.next_of_refused {r : Run} {e : Refusal} (h : r.fault = none) (hs : step r.state = .refused e) : r.next = r := by
  simp [Run.next, h, hs]

/-- A run that a step leaves as it is stays so for ever. -/
theorem Run.steps_of_still {r : Run} (h : r.next = r) (k : Nat) : Run.steps k r = r := by
  induction k with
  | zero => rfl
  | succ k ih => rw [Run.steps_succ, h, ih]

end Sys2Proof.Machine
end

