-- ==== Sys2Proof/Tests/Slice0.lean ====
section
/-! SUPPORT. The model's own tests: expected results are the vectors of 95_test_vectors.md (B1 to B8, P7) and words written out
from the encodings of 30_encoding.md; and for each statement with hypotheses a named witness of them. -/

namespace Sys2Proof.Tests

open Sys2Proof Sys2Proof.Machine

/-! ### Well-formedness: an ill-formed term for each check -/

theorem test_wf_refuses_load_r4 : (Instr.load .r0 .r4).wellFormed = false := by decide
theorem test_wf_refuses_store_r7 : (Instr.store .r1 .r7).wellFormed = false := by decide
theorem test_wf_refuses_addl_r0 : (Instr.addl .r0 1#4).wellFormed = false := by decide
theorem test_wf_refuses_termination_word_as_undefined : (Instr.undefMode111 .r7).wellFormed = false := by decide
theorem test_wf_accepts_load_r3 : (Instr.load .r7 .r3).wellFormed = true := by decide

/-! ### Decoding: a word of every constructor, written out bit by bit -/

theorem test_decode_register_type :
    decode 0b000000001#9 = .add .r0 .r1 ∧ decode 0b001111111#9 = .xor .r7 .r7 ∧ decode 0b010010000#9 = .and .r2 .r0 := by
  decide

theorem test_decode_memory_type :
    decode 0b011010101#9 = .load .r5 .r1 ∧ decode 0b011110111#9 = .load .r7 .r3 ∧
    decode 0b011011101#9 = .store .r5 .r1 ∧ decode 0b011001000#9 = .store .r0 .r0 := by decide

theorem test_decode_immediate_type :
    decode 0b100000001#9 = .addl .r4 0b0001#4 ∧ decode 0b100011000#9 = .addl .r5 0b1000#4 ∧
    decode 0b100111111#9 = .addl .r7 0b1111#4 := by decide

theorem test_decode_shift_group :
    decode 0b101100000#9 = .lshift .r4 ∧ decode 0b101011010#9 = .rshift .r3 ∧ decode 0b101011011#9 = .rotate .r3 ∧
    decode 0b101000100#9 = .dplsh .r0 ∧ decode 0b101111110#9 = .dprsh .r7 ∧ decode 0b101000001#9 = .undefMode001 .r0 ∧
    decode 0b101111101#9 = .undefMode101 .r7 ∧ decode 0b101110111#9 = .undefMode111 .r6 ∧
    decode 0b101111111#9 = .done := by decide

theorem test_decode_branch_group :
    decode 0b110001000#9 = .branchIfZeroReg .r1 ∧ decode 0b110110001#9 = .branchIfZeroAbs 6#3 ∧
    decode 0b110000010#9 = .branchIfNegativeReg .r0 ∧ decode 0b110110011#9 = .branchIfNegativeAbs 6#3 ∧
    decode 0b110101100#9 = .branchIfNotZeroReg .r5 ∧ decode 0b110110101#9 = .branchIfNotZeroAbs 6#3 ∧
    decode 0b110000110#9 = .branchIfNotNegativeReg .r0 ∧ decode 0b110111111#9 = .branchIfNotNegativeAbs 7#3 := by decide

theorem test_decode_parity_group :
    decode 0b111100000#9 = .parityCalcP0 .r4 ∧ decode 0b111100001#9 = .parityCalcP1 .r4 ∧
    decode 0b111100010#9 = .parityCalcP2 .r4 ∧ decode 0b111100011#9 = .parityCalcP4 .r4 ∧
    decode 0b111100100#9 = .parityCalcP8 .r4 ∧ decode 0b111110101#9 = .parityPackLSW .r6 ∧
    decode 0b111101110#9 = .parityPackMSW .r5 ∧ decode 0b111100111#9 = .parityUnpackLSW .r4 := by decide

/-- The words of Part A, by the encoder. -/
theorem test_encode_source_examples :
    encode (.load .r5 .r1) = 0x0D5#9 ∧ encode (.store .r5 .r1) = 0x0DD#9 ∧ encode (.addl .r7 0b1111#4) = 0x13F#9 ∧
    encode (.dprsh .r3) = 0x15E#9 ∧ encode .done = 0x17F#9 := by decide

theorem test_decodeTableWord_sixteen_bits :
    decodeTableWord 16 0x0D5 = some (.load .r5 .r1) ∧ decodeTableWord 16 0x200 = none := by decide

/-! ### One instruction each, from the common start state of Part B -/

/-- The common start state of Part B, with SC and data memory as a row gives them. -/
def start (sc : Bool) (dmem : Memory) : State where
  regs := ⟨0x80#8, 0x80#8, 0xFF#8, 0x01#8, 0x7F#8, 0x0F#8, 0xF0#8, 0x00#8⟩
  pc := 5
  z := false
  n := false
  sc := sc
  done := false
  dmem := dmem
  prog := []
  draws := 0

/-- Whether an outcome is a next state that passes a check. -/
def nextIs (o : Outcome) (p : State → Bool) : Bool :=
  match o with
  | .next t => p t
  | .fault _ => false
  | .refused _ => false

/-- Whether a state shows this register value, Z, N, SC and `pc` = 6. -/
def shows (r : Reg) (v : Byte) (z n sc : Bool) (t : State) : Bool :=
  t.reg r == v && t.z == z && t.n == n && t.sc == sc && t.pc == 6

theorem test_add_wraps : nextIs (exec (.add .r0 .r1) (start true [])) (shows .r0 0x00 true false true) = true := by decide
theorem test_add_negative : nextIs (exec (.add .r4 .r3) (start true [])) (shows .r4 0x80 false true true) = true := by decide
theorem test_xor_self : nextIs (exec (.xor .r2 .r2) (start true [])) (shows .r2 0x00 true false true) = true := by decide
theorem test_xor_merges : nextIs (exec (.xor .r5 .r6) (start true [])) (shows .r5 0xFF false true true) = true := by decide
theorem test_and_masks : nextIs (exec (.and .r2 .r0) (start true [])) (shows .r2 0x80 false true true) = true := by decide
theorem test_and_zero : nextIs (exec (.and .r7 .r2) (start true [])) (shows .r7 0x00 true false true) = true := by decide

theorem test_load_source_example :
    nextIs (exec (.load .r5 .r1) (start true [(0x0F, 0xAB#8)]))
      (fun t => t.reg .r1 == 0xAB#8 && t.reg .r5 == 0x0F#8 && t.sc && t.pc == 6) = true := by decide
theorem test_load_same_register :
    nextIs (exec (.load .r1 .r1) (start true [(0x80, 0x33#8)])) (fun t => t.reg .r1 == 0x33#8) = true := by decide
theorem test_store_source_example :
    nextIs (exec (.store .r5 .r1) (start true [(0x0F, 0xAB#8)]))
      (fun t => t.dmem == [(0x0F, 0x80#8)] && t.reg .r1 == 0x80#8 && t.pc == 6) = true := by decide
theorem test_store_highest_address :
    nextIs (exec (.store .r2 .r2) (start true [])) (fun t => t.dmem == [(0xFF, 0xFF#8)]) = true := by decide

theorem test_addl_wraps_down :
    nextIs (exec (.addl .r7 0b1111#4) (start true [])) (shows .r7 0xFF false true true) = true := by decide
theorem test_addl_most_negative :
    nextIs (exec (.addl .r5 0b1000#4) (start true [])) (shows .r5 0x07 false false true) = true := by decide

theorem test_lshift_carries_out :
    nextIs (exec (.lshift .r0) (start false [])) (shows .r0 0x00 true false true) = true := by decide
theorem test_lshift_clears_carry :
    nextIs (exec (.lshift .r4) (start true [])) (shows .r4 0xFE false true false) = true := by decide
theorem test_rshift_carries_out :
    nextIs (exec (.rshift .r3) (start false [])) (shows .r3 0x00 true false true) = true := by decide
theorem test_rshift_is_logical :
    nextIs (exec (.rshift .r0) (start true [])) (shows .r0 0x40 false false false) = true := by decide
theorem test_rotate_keeps_carry :
    nextIs (exec (.rotate .r3) (start false [])) (shows .r3 0x80 false true false) = true := by decide
theorem test_rotate_right : nextIs (exec (.rotate .r6) (start true [])) (shows .r6 0x78 false false true) = true := by decide
theorem test_dplsh_loses_bit_seven :
    nextIs (exec (.dplsh .r0) (start true [])) (shows .r0 0x01 false false true) = true := by decide
theorem test_dplsh_does_not_write_carry :
    nextIs (exec (.dplsh .r0) (start false [])) (shows .r0 0x00 true false false) = true := by decide
theorem test_dprsh_carry_in :
    nextIs (exec (.dprsh .r3) (start true [])) (shows .r3 0x80 false true true) = true := by decide
theorem test_dprsh_does_not_write_carry :
    nextIs (exec (.dprsh .r3) (start false [])) (shows .r3 0x00 true false false) = true := by decide

/-- Part B4's undefined word 0x141, at `pc` = 5. -/
theorem test_undefined_word : exec (decode 0x141#9) (start true []) = .fault (.undefinedInstruction 0x141#9 5) := by rfl

/-- The codes of R201's table. -/
theorem test_fault_codes : (Fault.undefinedInstruction 0x141#9 5).code = 1 ∧ (Fault.fetchOutOfProgram 7).code = 2 := by decide

/-- Part B5's state: `pc` = 100, `x[0]` = FE. -/
def branchStart (z n : Bool) : State := { (start true []) with regs := (start true []).regs.set .r0 0xFE#8, pc := 100, z := z, n := n }

/-- Whether a branch leads to these addresses for (Z, N) = (0,0), (1,0), (0,1), (1,1). -/
def leadsTo (i : Instr) (a b c d : Int) : Bool :=
  nextIs (exec i (branchStart false false)) (fun t => t.pc == a) && nextIs (exec i (branchStart true false)) (fun t => t.pc == b) &&
  nextIs (exec i (branchStart false true)) (fun t => t.pc == c) && nextIs (exec i (branchStart true true)) (fun t => t.pc == d)

theorem test_branch_if_zero_reg : leadsTo (.branchIfZeroReg .r0) 101 98 101 98 = true := by decide
theorem test_branch_if_zero_abs : leadsTo (.branchIfZeroAbs 6#3) 101 6 101 6 = true := by decide
theorem test_branch_if_negative_reg : leadsTo (.branchIfNegativeReg .r0) 101 101 98 98 = true := by decide
theorem test_branch_if_negative_abs : leadsTo (.branchIfNegativeAbs 6#3) 101 101 6 6 = true := by decide
theorem test_branch_if_not_zero_reg : leadsTo (.branchIfNotZeroReg .r0) 98 101 98 101 = true := by decide
theorem test_branch_if_not_zero_abs : leadsTo (.branchIfNotZeroAbs 6#3) 6 101 6 101 = true := by decide
theorem test_branch_if_not_negative_reg : leadsTo (.branchIfNotNegativeReg .r0) 98 98 101 101 = true := by decide
theorem test_branch_if_not_negative_abs : leadsTo (.branchIfNotNegativeAbs 6#3) 6 6 101 101 = true := by decide

/-- A state holding the parity data element of Part B6's third row, `x[4]` = EE. -/
def elementStart (x0 x1 : Byte) : State := { (start true []) with regs := ⟨x0, x1, 0#8, 0#8, 0xEE#8, 0#8, 0#8, 0#8⟩ }

theorem test_pack_lsw :
    nextIs (exec (.parityPackLSW .r4) (elementStart 0xA5 0x05)) (shows .r4 0x48 false false true) = true := by decide
theorem test_pack_lsw_any_layout :
    nextIs (exec (.parityPackLSW .r4) (elementStart 0xFF 0xFF)) (shows .r4 0xE8 false true true) = true := by decide
theorem test_pack_msw :
    nextIs (exec (.parityPackMSW .r1) (elementStart 0xA5 0x05)) (shows .r1 0xB4 false true true) = true := by decide
theorem test_pack_msw_low_nibble :
    nextIs (exec (.parityPackMSW .r4) (elementStart 0x10 0x00)) (shows .r4 0x02 false false true) = true := by decide

/-- Where each parity bit stands (R164 to R168). -/
theorem test_parity_pictures :
    p0Picture true = 0x01#8 ∧ p1Picture true = 0x02#8 ∧ p2Picture true = 0x04#8 ∧ p4Picture true = 0x10#8 ∧
    p8Picture true = 0x01#8 ∧ p4Picture false = 0x00#8 := by decide

/-- Part B6, the rows A5/05, 10/00 and 00/04, of the default functions. -/
theorem test_default_parities :
    hammingP0 0xA5 0x05 = true ∧ hammingP1 0xA5 0x05 = true ∧ hammingP2 0xA5 0x05 = false ∧ hammingP4 0xA5 0x05 = false ∧
    hammingP8 0xA5 0x05 = false ∧ hammingP1 0x10 0x00 = true ∧ hammingP4 0x10 0x00 = false ∧ hammingP8 0x10 0x00 = true ∧
    hammingP8 0x00 0x04 = true ∧ hammingP0 0x4B 0xB4 = true := by decide

theorem test_default_unpack :
    defaultUnpackLSW 0x4B 0xB4 = 0x05#8 ∧ defaultUnpackLSW 0xFF 0x07 = 0x0F#8 ∧ defaultUnpackLSW 0x17 0x00 = 0x00#8 := by decide

/-- Part B7: the termination word at `pc` = 5. -/
theorem test_done : nextIs (exec .done (start true [])) (fun t => t.done && t.pc == 5 && t.reg .r2 == 0xFF#8) = true := by decide

/-! ### Steps -/

theorem test_step_runs_first_word :
    nextIs (step (State.reset.withFetchWord 16 0x103)) (fun t => t.reg .r4 == 0x03#8 && t.pc == 1) = true := by decide

/-- Part P7(a): the fetch at 7 of a three-word program. -/
theorem test_step_outside_program :
    step { State.reset with prog := [0x040#9, 0x1B9#9, 0x17F#9], pc := 7 } = .fault (.fetchOutOfProgram 7) := by rfl

theorem test_reset_has_no_program : step State.reset = .fault (.fetchOutOfProgram 0) := by rfl

/-! ### The assembler (Part B8) -/

theorem test_assemble_set :
    assemble [[.word "Set", .word "r5", .num (-2)]] = .ok [0x06D#9, 0x11E#9, 0x17F#9] := by decide

theorem test_assemble_alias_and_double_shift :
    assemble [[.word "Alias", .word "r2", .word "low"], [.word "DoubleLShift", .word "low", .word "r3", .num 2]] =
      .ok [0x150#9, 0x15C#9, 0x150#9, 0x15C#9, 0x17F#9] := by decide

theorem test_assemble_load_order :
    assemble [[.word "Load", .word "r5", .word "r1"], [.word "Branch", .word "IfZeroAbs", .num 6],
      [.word "Parity", .word "CalcP8", .word "r4"]] = .ok [0x0D5#9, 0x1B1#9, 0x1E4#9, 0x17F#9] := by decide

theorem test_assemble_refuses_ambiguous_name :
    assemble [[.word "Alias", .word "r2", .word "x"], [.word "Alias", .word "r3", .word "x"]] =
      .error (.ambiguousName "x") := by decide

theorem test_assemble_refuses_load_r4 :
    assemble [[.word "Load", .word "r0", .word "r4"]] = .error (.notLoadStorable .r4) := by decide

/-! ### Witnesses of the statements' hypotheses -/

theorem witness_raw_layout : ((elementStart 0xA5 0x07).reg .r1).toNat < 8 := by decide
theorem witness_violated_layout : 8 ≤ ((elementStart 0xA5 0x08).reg .r1).toNat := by decide
theorem witness_operand_outside_element : Reg.r2 ≠ .r0 ∧ Reg.r2 ≠ .r1 := by decide
theorem witness_default_element : (0x07#8).toNat < 8 := by decide

/-- A state from which a step answers a next state with `done` = 1. -/
theorem witness_step_next_done :
    ∃ t, step (State.reset.withFetchWord 16 0x17F) = .next t ∧ t.done = true := ⟨_, rfl, rfl⟩

theorem witness_exec_next_not_shift :
    (∃ t, exec (.rotate .r0) State.reset = .next t) ∧ ∀ x, Instr.rotate .r0 ≠ .lshift x ∧ Instr.rotate .r0 ≠ .rshift x :=
  ⟨⟨_, rfl⟩, fun _ => ⟨by simp, by simp⟩⟩

theorem witness_not_carry_reader :
    (∀ x, Instr.lshift .r0 ≠ .dplsh x ∧ Instr.lshift .r0 ≠ .dprsh x) ∧
    (∃ x, Instr.lshift .r0 = .lshift x ∨ Instr.lshift .r0 = .rshift x) :=
  ⟨fun _ => ⟨by simp, by simp⟩, .r0, .inl rfl⟩

theorem witness_not_branch : (Instr.load .r0 .r1).isBranch = false := by decide

theorem witness_unspecified_flags :
    ((Instr.branchIfZeroReg .r0).isBranch = true ∧ ∃ t, exec (.branchIfZeroReg .r0) State.reset = .next t) ∧
    (∃ t, exec .done State.reset = .next t) ∧ (∃ t, exec (.load .r0 .r0) State.reset = .next t) ∧
    (∃ t, exec (.store .r0 .r0) State.reset = .next t) := ⟨⟨rfl, _, rfl⟩, ⟨_, rfl⟩, ⟨_, rfl⟩, ⟨_, rfl⟩⟩

/-- A launched two-word program. -/
def launched : State := launch [0x040#9, 0x17F#9] [(3, 7#8)] (start true [])

theorem witness_step_runs_decoded :
    launched.done = false ∧ 0 ≤ launched.pc ∧ launched.prog[launched.pc.toNat]? = some 0x040#9 := by decide

theorem witness_fetch_below_and_above :
    (({ launched with pc := -1 } : State).done = false ∧ ({ launched with pc := -1 } : State).pc < 0) ∧
    (({ launched with pc := 2 } : State).done = false ∧
      (({ launched with pc := 2 } : State).prog.length : Int) ≤ ({ launched with pc := 2 } : State).pc) := by decide

/-- Each way a step stops is met: the end of a run, a fetch just outside, an undefined word. -/
theorem witness_step_stops :
    step { launched with done := true } = .refused .runEnded ∧ step { launched with pc := 2 } = .fault (.fetchOutOfProgram 2) ∧
    step { launched with prog := [0x141#9] } = .fault (.undefinedInstruction 0x141#9 0) := ⟨rfl, rfl, rfl⟩

theorem witness_defined : (Instr.branchIfZeroReg .r0).isUndefined = false := by decide

theorem witness_memory_canonical : launched.dmem.wf = true ∧ ∃ t, step launched = .next t := ⟨by decide, _, rfl⟩

theorem progWellFormed_two_words : ProgWellFormed [0x040#9, 0x17F#9] :=
  ⟨by decide, Nat.le_trans (by decide : 2 ≤ 2 ^ 3) (Nat.pow_le_pow_right (by decide) (Nat.le_add_right 3 _)), by decide⟩

theorem witness_launched : Launched (.start launched) := ⟨rfl, rfl, progWellFormed_two_words, rfl, by decide⟩

/-- A launch of a program whose first word is undefined. -/
def launchedUndefined : State := launch [0x141#9, 0x17F#9] [] (start true [])

/-- The launch premises do not assume a reachable fault away: this launch meets them, and its first step is a fault. -/
theorem witness_launched_may_fault :
    Launched (.start launchedUndefined) ∧ step launchedUndefined = .fault (.undefinedInstruction 0x141#9 0) :=
  ⟨⟨rfl, rfl, ⟨by decide, progWellFormed_two_words.2.1, by decide⟩, rfl, by decide⟩, rfl⟩

/-- The undefined word at address 0 is recorded with its address, and the record stays. -/
theorem test_fault_is_recorded :
    (Run.steps 3 (.start launchedUndefined)).fault = some (.undefinedInstruction 0x141#9 0) := by rfl

theorem witness_run_inv : RunInv launched ∧ ∃ t, step launched = .next t :=
  ⟨⟨by decide, progWellFormed_two_words, by decide, by decide, by decide⟩, _, rfl⟩

theorem witness_not_store :
    (∀ a d, Instr.load .r0 .r1 ≠ .store a d) ∧ ∃ t, exec (.load .r0 .r1) State.reset = .next t :=
  ⟨fun _ _ => by simp, _, rfl⟩

theorem witness_sequential :
    ProgWellFormed launched.prog ∧ fetchWord launched.prog launched.pc = some 0x040#9 ∧
    (decode 0x040#9).isBranch = false ∧ ∃ t, step launched = .next t ∧ t.done = false :=
  ⟨progWellFormed_two_words, rfl, by decide, _, rfl, rfl⟩

theorem witness_not_done : launched.done = false := rfl

/-- A one-line source file with an alias, as the assembler's statements need it. -/
theorem witness_assembly :
    takeDirectives [[.word "Alias", .word "r2", .word "low"], [.word "LShift", .word "low"]] =
      .ok ([⟨.r2, "low"⟩], [[.word "LShift", .word "low"]]) ∧
    ambiguousName [⟨.r2, "low"⟩] = none ∧
    assembleBody [⟨.r2, "low"⟩] [[.word "LShift", .word "low"]] = .ok [.lshift .r2] := by decide

theorem witness_assembled : ∃ ws, assemble [[.word "Zero", .word "r4"]] = .ok ws := ⟨[0x064#9, 0x17F#9], by decide⟩

/-- Each refusal's premises: names that resolve, registers of the wrong class, numbers just outside the ranges. -/
theorem witness_unencodable :
    resolve [] "r0" = .ok .r0 ∧ resolve [] "r4" = .ok .r4 ∧ Reg.r4.loadStorable = false ∧ Reg.r0.longImmediate = false ∧
    Reg.r4.longImmediate = true ∧ ((-9 : Int) < -8 ∨ (7 : Int) < -9) ∧ ((8 : Int) < -8 ∨ (7 : Int) < 8) ∧
    ((-1 : Int) < 0 ∨ (7 : Int) < -1) ∧ ((8 : Int) < 0 ∨ (7 : Int) < 8) := by decide

theorem witness_ambiguous_directives :
    takeDirectives [[.word "Alias", .word "r2", .word "x"], [.word "Alias", .word "r3", .word "x"]] =
      .ok ([⟨.r2, "x"⟩, ⟨.r3, "x"⟩], []) ∧
    ∃ d ∈ [Directive.mk .r2 "x", ⟨.r3, "x"⟩], ∃ e ∈ [Directive.mk .r2 "x", ⟨.r3, "x"⟩], d.name = e.name ∧ d.reg ≠ e.reg := by
  decide

theorem witness_two_names_one_register :
    takeDirectives [[.word "Alias", .word "r2", .word "x"], [.word "Alias", .word "r2", .word "y"]] =
      .ok ([⟨.r2, "x"⟩, ⟨.r2, "y"⟩], []) ∧
    ∀ d ∈ [Directive.mk .r2 "x", ⟨.r2, "y"⟩], ∀ e ∈ [Directive.mk .r2 "x", ⟨.r2, "y"⟩], d.name = e.name → d.reg = e.reg := by
  decide

theorem witness_two_registers : Reg.r2 ≠ Reg.r3 := by decide

end Sys2Proof.Tests
end

section
/-! SUPPORT. Encoding what a word decodes to gives the word back (R60 to R75). -/

namespace Sys2Proof

@[simp] theorem regBits_regOfBits (b : BitVec 3) : regBits (regOfBits b) = b := by
  revert b; decide

@[simp] theorem regLowBits_dataReg (dt : BitVec 2) : regLowBits (dataReg dt) = dt := by
  revert dt; decide

@[simp] theorem regLowBits_immReg (dt : BitVec 2) : regLowBits (immReg dt) = dt := by
  revert dt; decide

/-- The fields of the R-type and of the O-type make up the word (R62, R65). -/
theorem opcode_append_mid_append_low (w : IWord) : opcodeField w ++ midField w ++ lowField w = w := by
  simp only [opcodeField, midField, lowField, BitVec.extractLsb'_append_extractLsb'_eq_extractLsb']
  exact BitVec.extractLsb'_eq_self

/-- The fields of the M-type make up the word (R63). -/
theorem opcode_append_trunc_append_ext_append_low (w : IWord) :
    opcodeField w ++ truncField w ++ extField w ++ lowField w = w := by
  simp only [opcodeField, truncField, extField, lowField, BitVec.extractLsb'_append_extractLsb'_eq_extractLsb']
  exact BitVec.extractLsb'_eq_self

/-- The fields of the I-type make up the word (R64). -/
theorem opcode_append_trunc_append_imm (w : IWord) : opcodeField w ++ truncField w ++ immField w = w := by
  simp only [opcodeField, truncField, immField, BitVec.extractLsb'_append_extractLsb'_eq_extractLsb']
  exact BitVec.extractLsb'_eq_self

theorem encode_decodeShift (mode x : BitVec 3) : encode (decodeShift mode x) = oWord 0b101#3 x mode := by
  revert mode x; decide

theorem encode_decodeBranch (mode x : BitVec 3) : encode (decodeBranch mode x) = oWord 0b110#3 x mode := by
  revert mode x; decide

theorem encode_decodeParity (mode x : BitVec 3) : encode (decodeParity mode x) = oWord 0b111#3 x mode := by
  revert mode x; decide

/-- Decoding loses nothing of the word: opcode by opcode, the operands are the word's own fields (R61 to R74). -/
theorem encode_decode (w : IWord) : encode (decode w) = w := by
  have hmid := opcode_append_mid_append_low w
  have hext := opcode_append_trunc_append_ext_append_low w
  have himm := opcode_append_trunc_append_imm w
  have hop {n} (h : (opcodeField w).toNat = n) : opcodeField w = BitVec.ofNat 3 n := by simp [← h]
  unfold decode
  split
  case isTrue h => exact h.symm
  split
  case h_1 h => rw [hop h] at hmid; simpa only [encode, regBits_regOfBits] using hmid
  case h_2 h => rw [hop h] at hmid; simpa only [encode, regBits_regOfBits] using hmid
  case h_3 h => rw [hop h] at hmid; simpa only [encode, regBits_regOfBits] using hmid
  case h_4 h =>
    rw [hop h] at hext
    split
    case isTrue h0 => rw [h0] at hext; simpa only [encode, regBits_regOfBits, regLowBits_dataReg] using hext
    case isFalse h0 =>
      rw [show extField w = 1#1 by bv_omega] at hext
      simpa only [encode, regBits_regOfBits, regLowBits_dataReg] using hext
  case h_5 h => rw [hop h] at himm; simpa only [encode, regLowBits_immReg] using himm
  case h_6 h => rw [hop h] at hmid; rw [encode_decodeShift]; exact hmid
  case h_7 h => rw [hop h] at hmid; rw [encode_decodeBranch]; exact hmid
  case h_8 h0 h1 h2 h3 h4 h5 h6 =>
    have h7 : (opcodeField w).toNat = 7 := by grind [(opcodeField w).isLt]
    rw [hop h7] at hmid; rw [encode_decodeParity]; exact hmid

end Sys2Proof
end

section
/-! SUPPORT. Every way an instruction can go: the undefined rows fault, the others complete (R26, R136). -/

namespace Sys2Proof.Machine

theorem writeIfRawLayout_completes (rX : Reg) (v : Byte) (s : State) : ∃ t, writeIfRawLayout rX v s = .next t :=
  let ⟨t, h, _⟩ := writeIfRawLayout_spec rX v s
  ⟨t, h⟩

theorem exec_of_isUndefined {i : Instr} (s : State) (h : i.isUndefined = true) :
    exec i s = .fault (.undefinedInstruction (encode i) s.pc) := by
  cases i with
  | undefMode001 | undefMode101 | undefMode111 => rfl
  | _ => cases h

theorem exec_completes {i : Instr} (s : State) (h : i.isUndefined = false) : ∃ t, exec i s = .next t := by
  cases i with
  | undefMode001 | undefMode101 | undefMode111 => cases h
  | parityCalcP1 | parityCalcP2 | parityCalcP4 | parityCalcP8 | parityPackMSW =>
    exact writeIfRawLayout_completes _ _ s
  | _ => exact ⟨_, rfl⟩

theorem exec_eq_fault_iff (i : Instr) (s : State) (f : Fault) :
    exec i s = .fault f ↔ i.isUndefined = true ∧ f = .undefinedInstruction (encode i) s.pc := by
  cases h : i.isUndefined with
  | true => simp [exec_of_isUndefined s h, eq_comm (a := f)]
  | false =>
    obtain ⟨t, ht⟩ := exec_completes s h
    simp [ht]

theorem exec_ne_refused (i : Instr) (s : State) (e : Refusal) : exec i s ≠ .refused e := by
  cases h : i.isUndefined with
  | true => simp [exec_of_isUndefined s h]
  | false =>
    obtain ⟨t, ht⟩ := exec_completes s h
    simp [ht]

/-- Every branch is `branchTo` of a condition and a target (R140). -/
theorem exec_eq_branchTo {i : Instr} (s : State) (h : i.isBranch = true) :
    ∃ taken target, exec i s = branchTo taken target s := by
  cases i with
  | branchIfZeroReg | branchIfZeroAbs | branchIfNegativeReg | branchIfNegativeAbs
  | branchIfNotZeroReg | branchIfNotZeroAbs | branchIfNotNegativeReg | branchIfNotNegativeAbs => exact ⟨_, _, rfl⟩
  | _ => cases h

end Sys2Proof.Machine
end

section
/-! SUPPORT. Z and N after an instruction that leaves them unspecified (R30). -/

namespace Sys2Proof.Machine

/-- `t` holds as Z and N the next two free values that `s` has not drawn, and has counted them (log 6). -/
def DrawsFlags (s t : State) : Prop :=
  t.z = Config.freeFlag s.draws ∧ t.n = Config.freeFlag (s.draws + 1) ∧ t.draws = s.draws + 2

theorem branchTo_drawsFlags {taken : Bool} {target : Int} {s t : State} (h : branchTo taken target s = .next t) :
    DrawsFlags s t := by
  cases taken <;> cases h <;> exact ⟨rfl, rfl, rfl⟩

theorem exec_done_drawsFlags {s t : State} (h : exec .done s = .next t) : DrawsFlags s t := by
  cases h; exact ⟨rfl, rfl, rfl⟩

theorem exec_load_drawsFlags {rA rD : Reg} {s t : State} (h : exec (.load rA rD) s = .next t) : DrawsFlags s t := by
  cases h; exact ⟨rfl, rfl, rfl⟩

theorem exec_store_drawsFlags {rA rD : Reg} {s t : State} (h : exec (.store rA rD) s = .next t) : DrawsFlags s t := by
  cases h; exact ⟨rfl, rfl, rfl⟩

/-- Settles O35: each of the four kinds ends in `State.drawZN` and a change of neither flags nor draw counter. -/
theorem unspecifiedFlagsAreFreshDraws : Obligations.UnspecifiedFlagsAreFreshDraws := by
  rintro i s t (hb | rfl | ⟨a, d, rfl | rfl⟩) h
  · obtain ⟨taken, target, hexec⟩ := exec_eq_branchTo s hb
    exact branchTo_drawsFlags (hexec ▸ h)
  · exact exec_done_drawsFlags h
  · exact exec_load_drawsFlags h
  · exact exec_store_drawsFlags h

end Sys2Proof.Machine
end

section
/-! SUPPORT. Every way a step can go or stop (R47, R201, U13). -/

namespace Sys2Proof.Machine

theorem step_of_done {s : State} (hd : s.done = true) : step s = .refused .runEnded := by
  simp [step, hd]

theorem step_of_fetch {s : State} {w : IWord} (hd : s.done = false) (hf : fetchWord s.prog s.pc = some w) :
    step s = exec (decode w) s := by
  simp [step, hd, hf]

theorem step_of_no_fetch {s : State} (hd : s.done = false) (hf : fetchWord s.prog s.pc = none) :
    step s = .fault (.fetchOutOfProgram s.pc) := by
  simp [step, hd, hf]

theorem step_eq_refused_iff (s : State) (e : Refusal) : step s = .refused e ↔ s.done = true ∧ e = .runEnded := by
  obtain ⟨hd, hs⟩ | ⟨hd, -, hs⟩ | ⟨hd, w, -, hs⟩ := step_cases s
  · simp [hd, hs, eq_comm (a := e)]
  · simp [hd, hs]
  · simp [hd, hs, exec_ne_refused]

theorem step_eq_fault_iff (s : State) (f : Fault) :
    step s = .fault f ↔ s.done = false ∧
      ((fetchWord s.prog s.pc = none ∧ f = .fetchOutOfProgram s.pc) ∨
        ∃ w, fetchWord s.prog s.pc = some w ∧ (decode w).isUndefined = true ∧ f = .undefinedInstruction w s.pc) := by
  obtain ⟨hd, hs⟩ | ⟨hd, hf, hs⟩ | ⟨hd, w, hf, hs⟩ := step_cases s
  · simp [hd, hs]
  · simp [hd, hs, hf, eq_comm (a := f)]
  · simp [hd, hs, hf, exec_eq_fault_iff, encode_decode]

theorem done_eq_false_of_step_fault {s : State} {f : Fault} (h : step s = .fault f) : s.done = false :=
  ((step_eq_fault_iff s f).mp h).1

/-- Settles O36: an address of the program is one where a word is fetched. -/
theorem stepRunsDecoded : Obligations.StepRunsDecoded := by
  intro s w hd hpc hw
  exact step_of_fetch hd ((fetchWord_eq_some_iff s.prog s.pc w).mpr ⟨hpc, hw⟩)

/-- Settles O37: outside the program no word is fetched. -/
theorem fetchOutsideFaults : Obligations.FetchOutsideFaults := by
  intro s hd hpc
  exact step_of_no_fetch hd ((fetchWord_eq_none_iff s.prog s.pc).mpr hpc)

/-- Settles O38: an instruction is never refused, it faults only as an undefined row, and the word the fault names is the word
that was fetched (`encode_decode`). -/
theorem howAStepStops : Obligations.HowAStepStops := by
  intro s
  refine ⟨step_eq_refused_iff s, fun f h => ?_⟩
  obtain ⟨hd, ⟨hf, rfl⟩ | ⟨w, hf, hu, rfl⟩⟩ := (step_eq_fault_iff s f).mp h
  · have hpc := (fetchWord_eq_none_iff s.prog s.pc).mp hf
    exact ⟨hd, .inl ⟨rfl, by omega⟩⟩
  · obtain ⟨hpc, hw⟩ := (fetchWord_eq_some_iff s.prog s.pc w).mp hf
    exact ⟨hd, .inr ⟨w, hw, hpc, hu, rfl⟩⟩

end Sys2Proof.Machine
end

section
/-! SUPPORT. Runs: some number of steps of the machine, and the same number of steps of a run with its record (R181, R203, R205). -/

namespace Sys2Proof.Machine

@[simp] theorem runSteps_zero (s : State) : runSteps 0 s = .next s := rfl

theorem runSteps_succ_of_next {s t : State} (h : step s = .next t) (k : Nat) : runSteps (k + 1) s = runSteps k t := by
  simp [runSteps, h]

theorem runSteps_succ_of_fault {s : State} {f : Fault} (h : step s = .fault f) (k : Nat) :
    runSteps (k + 1) s = .fault f := by
  simp [runSteps, h]

theorem runSteps_succ_of_refused {s : State} {e : Refusal} (h : step s = .refused e) (k : Nat) :
    runSteps (k + 1) s = .refused e := by
  simp [runSteps, h]

theorem runSteps_succ_of_done {s : State} (hd : s.done = true) (k : Nat) : runSteps (k + 1) s = .refused .runEnded :=
  runSteps_succ_of_refused (step_of_done hd) k

/-- A run of `j + k` steps whose first `j` complete goes on with `k` steps from where they lead. -/
theorem runSteps_add_of_next {j : Nat} {s t : State} (h : runSteps j s = .next t) (k : Nat) :
    runSteps (j + k) s = runSteps k t := by
  induction j generalizing s with
  | zero => cases h; rw [Nat.zero_add]
  | succ j ih =>
    rw [Nat.succ_add]
    cases hs : step s with
    | next u =>
      rw [runSteps_succ_of_next hs] at h ⊢
      exact ih h
    | fault f => rw [runSteps_succ_of_fault hs] at h; cases h
    | refused e => rw [runSteps_succ_of_refused hs] at h; cases h

/-- A fault within `j` steps is the outcome of every longer run. -/
theorem runSteps_add_of_fault {j : Nat} {s : State} {f : Fault} (h : runSteps j s = .fault f) (k : Nat) :
    runSteps (j + k) s = .fault f := by
  induction j generalizing s with
  | zero => cases h
  | succ j ih =>
    rw [Nat.succ_add]
    cases hs : step s with
    | next u =>
      rw [runSteps_succ_of_next hs] at h ⊢
      exact ih h
    | fault g =>
      rw [runSteps_succ_of_fault hs] at h ⊢
      exact h
    | refused e => rw [runSteps_succ_of_refused hs] at h; cases h

/-- A run that neither ends normally nor abnormally always has a next step, and that step does not raise `done`. -/
theorem hangs_of_no_end {s : State} (hd : s.done = false) (hn : ¬ ∃ t, EndsNormally s t)
    (ha : ¬ ∃ f, EndsAbnormally s f) : Hangs s := by
  intro k
  induction k with
  | zero => exact ⟨s, rfl, hd⟩
  | succ k ih =>
    obtain ⟨t, ht, htd⟩ := ih
    have hlast : runSteps (k + 1) s = runSteps 1 t := runSteps_add_of_next ht 1
    cases hs : step t with
    | next u =>
      rw [runSteps_succ_of_next hs, runSteps_zero] at hlast
      exact ⟨u, hlast, Bool.eq_false_iff.mpr fun hu => hn ⟨u, k + 1, hlast, hu⟩⟩
    | fault f => exact absurd ⟨f, k + 1, hlast.trans (runSteps_succ_of_fault hs 0)⟩ ha
    | refused e =>
      have htd' := ((step_eq_refused_iff t e).mp hs).1
      simp [htd] at htd'

theorem not_endsAbnormally_of_endsNormally {s t : State} (hn : EndsNormally s t) (f : Fault) : ¬ EndsAbnormally s f := by
  rintro ⟨k, hk⟩
  obtain ⟨j, hj, hd⟩ := hn
  obtain hkj | hjk := Nat.lt_or_ge j k
  · obtain ⟨m, rfl⟩ := Nat.exists_eq_add_of_lt hkj
    rw [Nat.add_assoc, runSteps_add_of_next hj, runSteps_succ_of_done hd] at hk
    cases hk
  · obtain ⟨m, rfl⟩ := Nat.exists_eq_add_of_le hjk
    rw [runSteps_add_of_fault hk] at hj
    cases hj

theorem not_hangs_of_endsNormally {s t : State} (hn : EndsNormally s t) : ¬ Hangs s := by
  intro hh
  obtain ⟨k, hk, hd⟩ := hn
  obtain ⟨u, hu, hud⟩ := hh k
  rw [hk] at hu
  cases hu
  simp [hd] at hud

theorem not_hangs_of_endsAbnormally {s : State} {f : Fault} (ha : EndsAbnormally s f) : ¬ Hangs s := by
  intro hh
  obtain ⟨k, hk⟩ := ha
  obtain ⟨u, hu, -⟩ := hh k
  rw [hk] at hu
  cases hu

/-- Settles O47: a run with no end is a hang; the end of a run, of either kind, is final. -/
theorem runsGoOneWay : Obligations.RunsGoOneWay := by
  intro s hd
  refine ⟨?_, ?_, ?_, ?_⟩
  · by_cases hn : ∃ t, EndsNormally s t
    · exact .inl hn
    · by_cases ha : ∃ f, EndsAbnormally s f
      · exact .inr (.inl ha)
      · exact .inr (.inr (hangs_of_no_end hd hn ha))
  · rintro ⟨⟨t, hn⟩, ⟨f, ha⟩⟩
    exact not_endsAbnormally_of_endsNormally hn f ha
  · rintro ⟨⟨t, hn⟩, hh⟩
    exact not_hangs_of_endsNormally hn hh
  · rintro ⟨⟨f, ha⟩, hh⟩
    exact not_hangs_of_endsAbnormally ha hh

theorem Run.eq_start_of_noFaultRecorded {r : Run} (h : NoFaultRecorded r) : r = .start r.state := by
  obtain ⟨s, fault⟩ := r
  cases h
  rfl

theorem Run.steps_of_recorded {r : Run} {f : Fault} (h : r.fault = some f) (k : Nat) : Run.steps k r = r :=
  Run.steps_of_still (Run.next_of_recorded h) k

/-- The next step records the fault of the machine's step, and no other. -/
theorem Run.next_start_fault_iff (s : State) (f : Fault) :
    (Run.start s).next.fault = some f ↔ step s = .fault f := by
  cases hs : step s with
  | next t => simp [Run.next_of_next rfl (r := .start s) hs]
  | fault g => simp [Run.next_of_fault rfl (r := .start s) hs]
  | refused e => simp [Run.next_of_refused rfl (r := .start s) hs]

/-- A fault of the machine's step is recorded for good, beside the state it found. -/
theorem Run.steps_start_of_fault {s : State} {f : Fault} (h : step s = .fault f) (k : Nat) :
    Run.steps (k + 1) (.start s) = ⟨s, some f⟩ := by
  rw [Run.steps_succ, Run.next_of_fault rfl (r := .start s) h]
  exact Run.steps_of_recorded rfl k

/-- `k` steps of a run record a fault exactly when `k` steps of the machine end in it. -/
theorem Run.steps_start_fault_iff (k : Nat) (s : State) (f : Fault) :
    (Run.steps k (.start s)).fault = some f ↔ runSteps k s = .fault f := by
  induction k generalizing s with
  | zero => simp
  | succ k ih =>
    cases hs : step s with
    | next t =>
      rw [Run.steps_succ, Run.next_of_next rfl (r := .start s) hs, runSteps_succ_of_next hs]
      exact ih t
    | fault g =>
      rw [Run.steps_start_of_fault hs, runSteps_succ_of_fault hs]
      simp
    | refused e =>
      have hstill : Run.steps (k + 1) (.start s) = .start s :=
        Run.steps_of_still (Run.next_of_refused rfl hs) (k + 1)
      rw [hstill, runSteps_succ_of_refused hs]
      simp

/-- Settles O60: a run without a record is a fresh one, and its record follows the machine's own steps. -/
theorem faultIsRecordedForGood : Obligations.FaultIsRecordedForGood := by
  intro r hr
  rw [Run.eq_start_of_noFaultRecorded hr]
  refine ⟨Run.next_start_fault_iff r.state, fun f hf => ?_, fun f => ?_, ?_⟩
  · exact ⟨done_eq_false_of_step_fault hf, Run.steps_start_of_fault hf⟩
  · simp [EndsAbnormally, Run.steps_start_fault_iff]
  · simp [NeverFaults, NoFaultRecorded, Option.eq_none_iff_forall_ne_some, Run.steps_start_fault_iff]

end Sys2Proof.Machine
end

section
/-! SUPPORT. What each instruction that completes does to the state, said once: which fields it can change (R26, R28, R31). -/

namespace Sys2Proof.Machine

/-- Whether an instruction is one of the two that write SC (R28). -/
def IsLogicalShift (i : Instr) : Prop := ∃ x, i = .lshift x ∨ i = .rshift x

/-- The five ways an instruction `i` that completes takes a state `s` to the next. -/
inductive ExecEffect (i : Instr) (s : State) : State → Prop where
  | result {t : State} (d : Reg) (v : Byte) (hw : WritesResult d v s t) (hsc : t.sc = s.sc ∨ IsLogicalShift i) :
      ExecEffect i s t
  | load (rA rD : Reg) (hi : i = .load rA rD) :
      ExecEffect i s ((s.setReg rD (s.memRead (effectiveAddress rA s))).drawZN).advance
  | store (rA rD : Reg) (hi : i = .store rA rD) :
      ExecEffect i s ((s.memWrite (effectiveAddress rA s) (s.reg rD)).drawZN).advance
  | branch {t : State} (hi : i.isBranch = true) (hk : BranchKeeps s t) : ExecEffect i s t
  | done (hi : i = .done) : ExecEffect i s s.drawZN.raiseDone

theorem execEffect_of_writeResult {i : Instr} {d : Reg} {v : Byte} {s t : State} (h : writeResult d v s = .next t) :
    ExecEffect i s t := by
  obtain ⟨u, hu, hw, hsc, -⟩ := writeResult_spec d v s
  cases hu.symm.trans h
  exact .result d v hw (.inl hsc)

/-- LShift and RShift write SC before their result, which keeps everything else of `s` (R131, R132). -/
theorem execEffect_of_writeResult_setSC {i : Instr} (hi : IsLogicalShift i) {d : Reg} {v : Byte} {b : Bool} {s t : State}
    (h : writeResult d v (s.setSC b) = .next t) : ExecEffect i s t := by
  obtain ⟨u, hu, hw, -⟩ := writeResult_spec d v (s.setSC b)
  cases hu.symm.trans h
  exact .result d v hw (.inr hi)

theorem execEffect_of_writeIfRawLayout {i : Instr} {d : Reg} {v : Byte} {s t : State}
    (h : writeIfRawLayout d v s = .next t) : ExecEffect i s t := by
  obtain ⟨u, hu, hsc, hw⟩ := writeIfRawLayout_spec d v s
  cases hu.symm.trans h
  exact .result d _ hw (.inl hsc)

theorem execEffect_of_isBranch {i : Instr} (hi : i.isBranch = true) {s t : State} (h : exec i s = .next t) :
    ExecEffect i s t := by
  obtain ⟨taken, target, hexec⟩ := exec_eq_branchTo s hi
  obtain ⟨u, hu, hk, -⟩ := branchTo_spec taken target s
  cases (hexec.trans hu).symm.trans h
  exact .branch hi hk

theorem execEffect_of_exec {i : Instr} {s t : State} (h : exec i s = .next t) : ExecEffect i s t := by
  cases i with
  | add | xor | and | addl | rotate | dplsh | dprsh | parityCalcP0 | parityPackLSW | parityUnpackLSW =>
    exact execEffect_of_writeResult h
  | lshift rX => exact execEffect_of_writeResult_setSC ⟨rX, .inl rfl⟩ h
  | rshift rX => exact execEffect_of_writeResult_setSC ⟨rX, .inr rfl⟩ h
  | parityCalcP1 | parityCalcP2 | parityCalcP4 | parityCalcP8 | parityPackMSW => exact execEffect_of_writeIfRawLayout h
  | load rA rD => cases h; exact .load rA rD rfl
  | store rA rD => cases h; exact .store rA rD rfl
  | done => cases h; exact .done rfl
  | undefMode001 | undefMode101 | undefMode111 => cases h
  | branchIfZeroReg | branchIfZeroAbs | branchIfNegativeReg | branchIfNegativeAbs
  | branchIfNotZeroReg | branchIfNotZeroAbs | branchIfNotNegativeReg | branchIfNotNegativeAbs =>
    exact execEffect_of_isBranch rfl h

theorem exec_done_eq {i : Instr} {s t : State} (h : exec i s = .next t) (hi : i ≠ .done) : t.done = s.done := by
  cases execEffect_of_exec h with
  | result d v hw =>
    obtain ⟨-, -, -, -, -, hdone, -⟩ := hw
    exact hdone
  | load | store => rfl
  | branch _ hk =>
    obtain ⟨-, -, -, -, hdone⟩ := hk
    exact hdone
  | done hd => exact absurd hd hi

theorem exec_sc_eq {i : Instr} {s t : State} (h : exec i s = .next t) (hi : ¬ IsLogicalShift i) : t.sc = s.sc := by
  cases execEffect_of_exec h with
  | result d v hw hsc => exact hsc.resolve_right hi
  | load | store | done => rfl
  | branch _ hk =>
    obtain ⟨-, -, -, hsc, -⟩ := hk
    exact hsc

/-- Settles O32: every effect but that of the two logical shifts keeps SC. -/
theorem shiftCarryWriters : Obligations.ShiftCarryWriters := by
  intro i s t h hi
  refine exec_sc_eq h ?_
  rintro ⟨x, rfl | rfl⟩
  · exact (hi x).1 rfl
  · exact (hi x).2 rfl

theorem exec_raises_done_iff {i : Instr} {s t : State} (hd : s.done = false) (h : exec i s = .next t) :
    t.done = true ↔ i = .done := by
  constructor
  · intro ht
    by_contra hi
    simp [exec_done_eq h hi, hd] at ht
  · rintro rfl
    cases h
    rfl

/-- The termination word is the only word of Done: decoding loses nothing (`encode_decode`). -/
theorem decode_eq_done_iff (w : IWord) : decode w = .done ↔ w = doneWord := by
  constructor
  · intro h
    calc w = encode (decode w) := (encode_decode w).symm
      _ = doneWord := by rw [h]; rfl
  · rintro rfl
    rfl

/-- Settles O31: a step with a next state executes the fetched word, with `done` = 0 before it. -/
theorem doneRaisedOnlyByTermination : Obligations.DoneRaisedOnlyByTermination := by
  intro s t h
  obtain ⟨-, hs⟩ | ⟨-, -, hs⟩ | ⟨hd, w, hf, hs⟩ := step_cases s
  · cases hs.symm.trans h
  · cases hs.symm.trans h
  · rw [exec_raises_done_iff hd (hs.symm.trans h), decode_eq_done_iff, hf, Option.some.injEq, doneWord]

end Sys2Proof.Machine
end

section
/-! SUPPORT. Who reads SC (R28): the operations that neither read nor write SC go the same way with any SC. -/

namespace Sys2Proof.Machine

theorem mapNext_setSC_idem (b : Bool) (o : Outcome) :
    mapNext (State.setSC · b) (mapNext (State.setSC · b) o) = mapNext (State.setSC · b) o := by
  cases o <;> rfl

/-- The instruction `i` neither reads nor writes SC: it goes the same way with any SC, and that SC is there after it. -/
def CarriesSC (i : Instr) : Prop :=
  ∀ (s : State) (b : Bool), exec i (s.setSC b) = mapNext (State.setSC · b) (exec i s)

theorem writeResult_setSC (d : Reg) (v : Byte) (s : State) (b : Bool) :
    writeResult d v (s.setSC b) = mapNext (State.setSC · b) (writeResult d v s) := rfl

theorem writeIfRawLayout_setSC (d : Reg) (v : Byte) (s : State) (b : Bool) :
    writeIfRawLayout d v (s.setSC b) = mapNext (State.setSC · b) (writeIfRawLayout d v s) := by
  have hmsw : (s.setSC b).msw = s.msw := rfl
  unfold writeIfRawLayout
  rw [hmsw]
  split
  · exact writeResult_setSC d v s b
  · exact writeResult_setSC d (Config.freeByte s.draws) s.countDraw b

theorem branchTo_setSC (taken : Bool) (target : Int) (s : State) (b : Bool) :
    branchTo taken target (s.setSC b) = mapNext (State.setSC · b) (branchTo taken target s) := by
  cases taken <;> rfl

/-- LShift and RShift overwrite SC without reading it (R131, R132). -/
theorem exec_setSC_of_isLogicalShift {i : Instr} (hi : IsLogicalShift i) (s : State) (b : Bool) :
    exec i (s.setSC b) = exec i s := by
  obtain ⟨x, rfl | rfl⟩ := hi <;> rfl

/-- Every instruction carries SC along, but the two that write it and the two that read it (R28). -/
theorem carriesSC_of_not_shift {i : Instr} (hw : ¬ IsLogicalShift i) (hr : ∀ x, i ≠ .dplsh x ∧ i ≠ .dprsh x) :
    CarriesSC i := by
  intro s b
  cases i with
  | lshift x => exact absurd ⟨x, .inl rfl⟩ hw
  | rshift x => exact absurd ⟨x, .inr rfl⟩ hw
  | dplsh x => exact absurd rfl (hr x).1
  | dprsh x => exact absurd rfl (hr x).2
  | add | xor | and | addl | rotate | parityCalcP0 | parityPackLSW | parityUnpackLSW => exact writeResult_setSC _ _ s b
  | parityCalcP1 | parityCalcP2 | parityCalcP4 | parityCalcP8 | parityPackMSW => exact writeIfRawLayout_setSC _ _ s b
  | branchIfZeroReg | branchIfZeroAbs | branchIfNegativeReg | branchIfNegativeAbs
  | branchIfNotZeroReg | branchIfNotZeroAbs | branchIfNotNegativeReg | branchIfNotNegativeAbs =>
    exact branchTo_setSC _ _ s b
  | load | store | done | undefMode001 | undefMode101 | undefMode111 => rfl

/-- Settles O33: the logical shifts overwrite SC, and every other instruction that is no reader carries it along. -/
theorem shiftCarryReaders : Obligations.ShiftCarryReaders := by
  intro i s b hr
  refine ⟨?_, fun hw => exec_setSC_of_isLogicalShift hw s b⟩
  by_cases hw : IsLogicalShift i
  · rw [exec_setSC_of_isLogicalShift hw]
  · rw [carriesSC_of_not_shift hw hr s b, mapNext_setSC_idem]

end Sys2Proof.Machine
end

section
/-! SUPPORT. What the Parity group reads and writes: `r0` and `r1` are read, the operand register is written (R163). -/

namespace Sys2Proof.Machine

theorem RegFile.set_set (f : RegFile) (r : Reg) (v w : Byte) : (f.set r v).set r w = f.set r w := by
  cases r <;> rfl

@[simp] theorem State.setReg_setReg (s : State) (r : Reg) (v w : Byte) : (s.setReg r v).setReg r w = s.setReg r w := by
  simp [State.setReg, RegFile.set_set]

theorem State.setReg_lsw {r : Reg} (hr : r ≠ .r0) (s : State) (v : Byte) : (s.setReg r v).lsw = s.lsw := by
  simp [State.lsw, hr.symm]

theorem State.setReg_msw {r : Reg} (hr : r ≠ .r1) (s : State) (v : Byte) : (s.setReg r v).msw = s.msw := by
  simp [State.msw, hr.symm]

theorem writeResult_setReg_same (d : Reg) (v w : Byte) (s : State) :
    writeResult d w (s.setReg d v) = writeResult d w s := by
  simp [writeResult]

theorem State.setReg_countDraw (s : State) (r : Reg) (v : Byte) : (s.setReg r v).countDraw = s.countDraw.setReg r v := rfl

theorem writeIfRawLayout_setReg_same {d : Reg} (hd : d ≠ .r1) (v w : Byte) (s : State) :
    writeIfRawLayout d w (s.setReg d v) = writeIfRawLayout d w s := by
  simp only [writeIfRawLayout, State.setReg_msw hd, State.setReg_countDraw, State.setReg_draws, writeResult_setReg_same]

/-- The eight instructions of the Parity group with operand register `x` (R72). -/
def parityGroup (x : Reg) : List Instr :=
  [.parityCalcP0 x, .parityCalcP1 x, .parityCalcP2 x, .parityCalcP4 x, .parityCalcP8 x, .parityPackLSW x,
    .parityPackMSW x, .parityUnpackLSW x]

/-- Every parity instruction writes a function of the parity data element, as it is or if the layout is raw (R163, R172). -/
theorem exec_parityGroup {x : Reg} {i : Instr} (hi : i ∈ parityGroup x) :
    ∃ f : Byte → Byte → Byte, (∀ s, exec i s = writeResult x (f s.lsw s.msw) s) ∨
      (∀ s, exec i s = writeIfRawLayout x (f s.lsw s.msw) s) := by
  simp only [parityGroup, List.mem_cons, List.not_mem_nil, or_false] at hi
  obtain rfl | rfl | rfl | rfl | rfl | rfl | rfl | rfl := hi
  · exact ⟨fun x0 x1 => p0Picture (parityP0 x0 x1), .inl fun _ => rfl⟩
  · exact ⟨fun x0 x1 => p1Picture (parityP1 x0 x1), .inr fun _ => rfl⟩
  · exact ⟨fun x0 x1 => p2Picture (parityP2 x0 x1), .inr fun _ => rfl⟩
  · exact ⟨fun x0 x1 => p4Picture (parityP4 x0 x1), .inr fun _ => rfl⟩
  · exact ⟨fun x0 x1 => p8Picture (parityP8 x0 x1), .inr fun _ => rfl⟩
  · exact ⟨fun x0 _ => packLSWPicture x0, .inl fun _ => rfl⟩
  · exact ⟨packMSWPicture, .inr fun _ => rfl⟩
  · exact ⟨unpackLSW, .inl fun _ => rfl⟩

/-- Settles O27: the value written comes from `r0` and `r1` alone, and it overwrites what the operand register held. -/
theorem parityOperandWrittenOnly : Obligations.ParityOperandWrittenOnly := by
  intro x v s h0 h1 i hi
  obtain ⟨f, hexec | hexec⟩ := exec_parityGroup hi
  · rw [hexec, hexec, State.setReg_lsw h0, State.setReg_msw h1, writeResult_setReg_same]
  · rw [hexec, hexec, State.setReg_lsw h0, State.setReg_msw h1, writeIfRawLayout_setReg_same h1]

end Sys2Proof.Machine
end

section
/-! SUPPORT. Decoding an instruction's word gives the instruction back, and decoding gives only instructions that have a word
(R60 to R75). -/

namespace Sys2Proof

@[simp] theorem regOfBits_regBits (r : Reg) : regOfBits (regBits r) = r := by
  cases r <;> rfl

theorem regBits_injective : Function.Injective regBits :=
  Function.LeftInverse.injective regOfBits_regBits

theorem regBits_dataReg (dt : BitVec 2) : regBits (dataReg dt) = 0b0#1 ++ dt := regBits_regOfBits _

theorem regBits_immReg (dt : BitVec 2) : regBits (immReg dt) = 0b1#1 ++ dt := regBits_regOfBits _

theorem dataReg_regLowBits {r : Reg} (h : r.loadStorable = true) : dataReg (regLowBits r) = r := by
  cases r with
  | r0 | r1 | r2 | r3 => rfl
  | r4 | r5 | r6 | r7 => cases h

theorem immReg_regLowBits {r : Reg} (h : r.longImmediate = true) : immReg (regLowBits r) = r := by
  cases r with
  | r0 | r1 | r2 | r3 => cases h
  | r4 | r5 | r6 | r7 => rfl

@[simp] theorem loadStorable_dataReg (dt : BitVec 2) : (dataReg dt).loadStorable = true := by
  revert dt; decide

@[simp] theorem longImmediate_immReg (dt : BitVec 2) : (immReg dt).longImmediate = true := by
  revert dt; decide

theorem dataReg_mem (dt : BitVec 2) : dataReg dt ∈ [Reg.r0, .r1, .r2, .r3] := by
  revert dt; decide

theorem immReg_mem (dt : BitVec 2) : immReg dt ∈ [Reg.r4, .r5, .r6, .r7] := by
  revert dt; decide

/-! The words of each opcode, from their fields (R62 to R65). -/

theorem decode_addWord (x y : BitVec 3) : decode (0b000#3 ++ x ++ y) = .add (regOfBits x) (regOfBits y) := by
  revert x y; decide

theorem decode_xorWord (x y : BitVec 3) : decode (0b001#3 ++ x ++ y) = .xor (regOfBits x) (regOfBits y) := by
  revert x y; decide

theorem decode_andWord (x y : BitVec 3) : decode (0b010#3 ++ x ++ y) = .and (regOfBits x) (regOfBits y) := by
  revert x y; decide

theorem decode_loadWord (dt : BitVec 2) (a : BitVec 3) :
    decode (0b011#3 ++ dt ++ 0b0#1 ++ a) = .load (regOfBits a) (dataReg dt) := by
  revert dt a; decide

theorem decode_storeWord (dt : BitVec 2) (a : BitVec 3) :
    decode (0b011#3 ++ dt ++ 0b1#1 ++ a) = .store (regOfBits a) (dataReg dt) := by
  revert dt a; decide

theorem decode_addlWord (dt : BitVec 2) (imm : BitVec 4) : decode (0b100#3 ++ dt ++ imm) = .addl (immReg dt) imm := by
  revert dt imm; decide

theorem decode_shiftWord (x mode : BitVec 3) :
    decode (oWord 0b101#3 x mode) = if x = 0b111#3 ∧ mode = 0b111#3 then .done else decodeShift mode x := by
  revert x mode; decide

theorem decode_branchWord (x mode : BitVec 3) : decode (oWord 0b110#3 x mode) = decodeBranch mode x := by
  revert x mode; decide

theorem decode_parityWord (x mode : BitVec 3) : decode (oWord 0b111#3 x mode) = decodeParity mode x := by
  revert x mode; decide

/-- Decoding the word of an instruction that has one gives the instruction back, format by format. -/
theorem decode_encode {i : Instr} (h : i.wellFormed = true) : decode (encode i) = i := by
  cases i with
  | add d r => simp only [encode, decode_addWord, regOfBits_regBits]
  | xor d r => simp only [encode, decode_xorWord, regOfBits_regBits]
  | and d r => simp only [encode, decode_andWord, regOfBits_regBits]
  | load a d => simp only [encode, decode_loadWord, regOfBits_regBits, dataReg_regLowBits h]
  | store a d => simp only [encode, decode_storeWord, regOfBits_regBits, dataReg_regLowBits h]
  | addl d imm => simp only [encode, decode_addlWord, immReg_regLowBits h]
  | done => rfl
  | lshift | rshift | rotate | dplsh | dprsh | undefMode001 | undefMode101 =>
    simp [encode, decode_shiftWord, decodeShift]
  | undefMode111 x =>
    have hx : regBits x ≠ 0b111#3 := regBits_injective.ne (bne_iff_ne.mp h : x ≠ .r7)
    simp [encode, decode_shiftWord, decodeShift, hx]
  | branchIfZeroReg | branchIfZeroAbs | branchIfNegativeReg | branchIfNegativeAbs
  | branchIfNotZeroReg | branchIfNotZeroAbs | branchIfNotNegativeReg | branchIfNotNegativeAbs =>
    simp [encode, decode_branchWord, decodeBranch]
  | parityCalcP0 | parityCalcP1 | parityCalcP2 | parityCalcP4 | parityCalcP8
  | parityPackLSW | parityPackMSW | parityUnpackLSW =>
    simp [encode, decode_parityWord, decodeParity]

/-- The words of opcode `101`, by their other two fields (R65, R74, R75). -/
theorem decode_of_opcode_shift {w : IWord} (h : opcodeField w = 0b101#3) :
    decode w = if midField w = 0b111#3 ∧ lowField w = 0b111#3 then .done else decodeShift (lowField w) (midField w) := by
  have hw : oWord 0b101#3 (midField w) (lowField w) = w := h ▸ opcode_append_mid_append_low w
  rw [← decode_shiftWord, hw]

theorem wellFormed_decodeShift {mode x : BitVec 3} (h : ¬ (x = 0b111#3 ∧ mode = 0b111#3)) :
    (decodeShift mode x).wellFormed = true := by
  revert mode x; decide

theorem isUndefined_decodeShift (mode x : BitVec 3) :
    (decodeShift mode x).isUndefined = true ↔ mode = 0b001#3 ∨ mode = 0b101#3 ∨ mode = 0b111#3 := by
  revert mode x; decide

theorem decodeBranch_defined (mode x : BitVec 3) :
    (decodeBranch mode x).wellFormed = true ∧ (decodeBranch mode x).isUndefined = false := by
  revert mode x; decide

theorem decodeParity_defined (mode x : BitVec 3) :
    (decodeParity mode x).wellFormed = true ∧ (decodeParity mode x).isUndefined = false := by
  revert mode x; decide

/-- Outside opcode `101` every word is an instruction's (R73). -/
theorem decode_defined_of_opcode_ne_shift {w : IWord} (h : opcodeField w ≠ 0b101#3) :
    (decode w).wellFormed = true ∧ (decode w).isUndefined = false := by
  unfold decode
  split
  case isTrue => exact ⟨rfl, rfl⟩
  split
  case h_1 | h_2 | h_3 => exact ⟨rfl, rfl⟩
  case h_4 => split <;> exact ⟨loadStorable_dataReg _, rfl⟩
  case h_5 => exact ⟨longImmediate_immReg _, rfl⟩
  case h_6 h5 => exact absurd (BitVec.eq_of_toNat_eq h5) h
  case h_7 => exact decodeBranch_defined _ _
  case h_8 => exact decodeParity_defined _ _

/-- Every word decodes to a term that has an encoding. -/
theorem wellFormed_decode (w : IWord) : (decode w).wellFormed = true := by
  by_cases hop : opcodeField w = 0b101#3
  · rw [decode_of_opcode_shift hop]
    split
    · rfl
    · exact wellFormed_decodeShift ‹_›
  · exact (decode_defined_of_opcode_ne_shift hop).1

/-- The undefined words, by their fields (R73). -/
theorem isUndefined_decode_iff (w : IWord) :
    (decode w).isUndefined = true ↔
      (opcodeField w = 0b101#3 ∧
        (lowField w = 0b001#3 ∨ lowField w = 0b101#3 ∨ (lowField w = 0b111#3 ∧ midField w ≠ 0b111#3))) := by
  by_cases hop : opcodeField w = 0b101#3
  · rw [decode_of_opcode_shift hop]
    split
    case isTrue h => simp [h, Instr.isUndefined]
    case isFalse h => rw [isUndefined_decodeShift]; grind
  · simp [hop, (decode_defined_of_opcode_ne_shift hop).2]

theorem decode_eq_of_encode_eq {w : IWord} {i : Instr} (hwf : i.wellFormed = true) (hw : encode i = w) : decode w = i :=
  hw ▸ decode_encode hwf

/-- Settles O1: decoding keeps every bit (`encode_decode`) and gives only terms with a word; `decode_encode` is the converse. -/
theorem decodeExactlyInvertsEncode : Obligations.DecodeExactlyInvertsEncode := by
  intro w i
  constructor
  · rintro rfl
    exact ⟨wellFormed_decode w, encode_decode w⟩
  · rintro ⟨hwf, hw⟩
    exact decode_eq_of_encode_eq hwf hw

end Sys2Proof
end

section
/-! SUPPORT. The encoding statements that name words (R62 to R74). -/

namespace Sys2Proof

/-- Settles O2: each word is the encoding of its well-formed instruction. -/
theorem sampleWordsDecode : Obligations.SampleWordsDecode := by
  and_intros <;> exact decode_eq_of_encode_eq rfl rfl

/-- Settles O3: the register a truncated field stands for, by format. -/
theorem truncatedRegisterFields : Obligations.TruncatedRegisterFields := by
  intro dt a imm
  refine ⟨⟨_, _, decode_loadWord dt a, regBits_regOfBits a, regBits_dataReg dt, dataReg_mem dt⟩,
    ⟨_, _, decode_storeWord dt a, regBits_regOfBits a, regBits_dataReg dt, dataReg_mem dt⟩,
    ⟨_, decode_addlWord dt imm, regBits_immReg dt, immReg_mem dt⟩⟩

/-- The last row of the Shift group holds the termination word among its undefined ones (R73, R74). -/
theorem decode_mode111Word (x : Reg) :
    decode (0b101#3 ++ regBits x ++ 0b111#3) = if x = .r7 then .done else .undefMode111 x := by
  split
  case isTrue h => subst h; rfl
  case isFalse h => exact decode_eq_of_encode_eq (i := .undefMode111 x) (bne_iff_ne.mpr h) rfl

/-- Settles O4: every other row is the word of the instruction it decodes to. -/
theorem modeTables : Obligations.ModeTables := by
  intro x k
  refine ⟨⟨?_, ?_, ?_, ?_, ?_, ?_, ?_, decode_mode111Word x⟩, ⟨?_, ?_, ?_, ?_, ?_, ?_, ?_, ?_⟩,
    ⟨?_, ?_, ?_, ?_, ?_, ?_, ?_, ?_⟩⟩ <;> exact decode_eq_of_encode_eq rfl rfl

/-- Settles O5: only the termination word decodes to Done. -/
theorem terminationWordAlone : Obligations.TerminationWordAlone := Machine.decode_eq_done_iff

end Sys2Proof
end

section
/-! SUPPORT. Encoding, result and frame of the register-type and immediate-type instructions (R100 to R103, R120). -/

namespace Sys2Proof.Machine

theorem execAdd_spec (d r : Reg) (s : State) :
    execAdd d r s = writeResult d (BitVec.ofNat 8 ((s.reg d).toNat + (s.reg r).toNat)) s := by
  simp [execAdd, BitVec.ofNat_add]

/-- The sum with the sign-extended immediate is the sum of the two integers, modulo 256 (R68, R120). -/
theorem execAddl_spec (d : Reg) (imm : BitVec 4) (s : State) :
    execAddl d imm s = writeResult d (BitVec.ofInt 8 ((s.reg d).toInt + imm.toInt)) s := by
  simp [execAddl, immOperand, BitVec.ofInt_add, BitVec.signExtend]

/-- Settles O6: the machine's sum of two bytes is their sum modulo 256. -/
theorem addResult : Obligations.AddResult := by
  intro d r s
  obtain ⟨t, ht, hspec⟩ := writeResult_spec d (BitVec.ofNat 8 ((s.reg d).toNat + (s.reg r).toNat)) s
  exact ⟨decode_eq_of_encode_eq rfl rfl, t, (execAdd_spec d r s).trans ht, hspec⟩

/-- Settles O7: Xor ends in `writeResult`. -/
theorem xorResult : Obligations.XorResult := fun d r s =>
  ⟨decode_eq_of_encode_eq rfl rfl, writeResult_spec d (s.reg d ^^^ s.reg r) s⟩

/-- Settles O8: And ends in `writeResult`. -/
theorem andResult : Obligations.AndResult := fun d r s =>
  ⟨decode_eq_of_encode_eq rfl rfl, writeResult_spec d (s.reg d &&& s.reg r) s⟩

/-- Settles O12: the immediate is added as the integer it codes. -/
theorem addlResult : Obligations.AddlResult := by
  intro d imm s
  obtain ⟨t, ht, hspec⟩ := writeResult_spec d (BitVec.ofInt 8 ((s.reg d).toInt + imm.toInt)) s
  exact ⟨t, (execAddl_spec d imm s).trans ht, hspec⟩

end Sys2Proof.Machine
end

section
/-! SUPPORT. The undefined words of the Shift group (R73, R136). -/

namespace Sys2Proof.Machine

/-- Settles O18: an instruction faults exactly as an undefined row (`exec_eq_fault_iff`), with its own word (`encode_decode`). -/
theorem undefinedWordsFault : Obligations.UndefinedWordsFault := by
  refine ⟨fun x s => ⟨rfl, rfl, rfl⟩, fun w s => ?_⟩
  rw [exec_eq_fault_iff, encode_decode, isUndefined_decode_iff]
  exact and_iff_left rfl

end Sys2Proof.Machine
end

section
/-! SUPPORT. What the assembler can emit: only instructions a source file can state (R78 to R87, R190 to R199). -/

namespace Sys2Proof.Machine

section Bind

variable {α β : Type}

@[simp] theorem asm_ok_bind (a : α) (f : α → Except AsmError β) : (Except.ok a >>= f) = f a := rfl

@[simp] theorem asm_error_bind (e : AsmError) (f : α → Except AsmError β) : (Except.error e >>= f) = .error e := rfl

theorem asm_bind_eq_ok {x : Except AsmError α} {f : α → Except AsmError β} {b : β} :
    (x >>= f) = .ok b ↔ ∃ a, x = .ok a ∧ f a = .ok b := by
  cases x <;> simp

end Bind

/-- An instruction a source file can state: it has a word, and the word is neither an undefined one nor the termination word
(R76, R86, R136). -/
def Assemblable (i : Instr) : Prop := i.wellFormed = true ∧ i.isUndefined = false ∧ i ≠ .done

/-- An assembly result that is a refusal or holds only instructions a source file can state. -/
def Emits (o : Except AsmError (List Instr)) : Prop := ∀ is, o = .ok is → ∀ i ∈ is, Assemblable i

theorem Emits.of_ok {is : List Instr} (h : ∀ i ∈ is, Assemblable i) : Emits (.ok is) := by
  rintro _ ⟨⟩; exact h

theorem Emits.single {i : Instr} (hwf : i.wellFormed = true) (hu : i.isUndefined = false) (hd : i ≠ .done) :
    Emits (.ok [i]) :=
  .of_ok fun _ hi => List.mem_singleton.mp hi ▸ ⟨hwf, hu, hd⟩

theorem Emits.error (e : AsmError) : Emits (.error e) := nofun

theorem Emits.ite {c : Prop} [Decidable c] {x y : Except AsmError (List Instr)} (hx : Emits x) (hy : Emits y) :
    Emits (if c then x else y) := by
  split
  · exact hx
  · exact hy

theorem Emits.bind {α : Type} {x : Except AsmError α} {f : α → Except AsmError (List Instr)}
    (h : ∀ a, x = .ok a → Emits (f a)) : Emits (x >>= f) := by
  intro is his
  obtain ⟨a, ha, hf⟩ := asm_bind_eq_ok.mp his
  exact h a ha is hf

theorem loadStorable_of_required {r d : Reg} (h : requireLoadStorable r = .ok d) : d.loadStorable = true := by
  grind [requireLoadStorable]

theorem longImmediate_of_required {r d : Reg} (h : requireLongImmediate r = .ok d) : d.longImmediate = true := by
  grind [requireLongImmediate]

theorem forall_mem_repeated {P : Instr → Prop} {is : List Instr} (h : ∀ i ∈ is, P i) (n : Nat) :
    ∀ i ∈ repeated n is, P i := by
  induction n with
  | zero => exact nofun
  | succ n ih => exact List.forall_mem_append.mpr ⟨h, ih⟩

/-- A pseudo-instruction stands for instructions a source file can state; only Set restricts its register (R87, R192). -/
theorem Emits.expand {p : Pseudo} (hp : ∀ x imm, p = .set x imm → x.longImmediate = true) : Emits (.ok (expand p)) := by
  refine .of_ok ?_
  cases p with
  | set x imm => simp [Machine.expand, Assemblable, Instr.wellFormed, Instr.isUndefined, hp x imm rfl]
  | zero | copy | swap => simp [Machine.expand, Assemblable, Instr.wellFormed, Instr.isUndefined]
  | rshift | lshift | rotate | doubleRShift | doubleLShift =>
    exact forall_mem_repeated (by simp [Assemblable, Instr.wellFormed, Instr.isUndefined]) _

/-! One lemma per table of the assembler, in the order of its rows. -/

theorem oneRegister_emits (m : String) (rX : Reg) : Emits (oneRegister m rX) := by
  unfold oneRegister
  repeat refine .ite (.single rfl rfl nofun) ?_
  exact .error _

theorem twoRegisters_emits (m : String) (r q : Reg) : Emits (twoRegisters m r q) := by
  unfold twoRegisters
  repeat refine .ite (.single rfl rfl nofun) ?_
  refine .ite (.bind fun d hd => ?load) <| .ite (.bind fun d hd => ?store) <|
    .ite (.expand nofun) <| .ite (.expand nofun) (.error _)
  all_goals exact .single (loadStorable_of_required hd) rfl nofun

theorem branchRegister_emits (form : String) (rX : Reg) : Emits (branchRegister form rX) := by
  unfold branchRegister
  repeat refine .ite (.single rfl rfl nofun) ?_
  exact .error _

theorem branchAbsolute_emits (form : String) (imm : BitVec 3) : Emits (branchAbsolute form imm) := by
  unfold branchAbsolute
  repeat refine .ite (.single rfl rfl nofun) ?_
  exact .error _

theorem parityStatement_emits (op : String) (rX : Reg) : Emits (parityStatement op rX) := by
  unfold parityStatement
  repeat refine .ite (.single rfl rfl nofun) ?_
  exact .error _

theorem registerNumber_emits (m : String) (rX : Reg) (n : Int) : Emits (registerNumber m rX n) := by
  unfold registerNumber
  refine .ite (.bind fun r hr => .bind fun imm _ => .expand ?set) ?_
  case set => rintro _ _ ⟨⟩; exact longImmediate_of_required hr
  repeat refine .ite (.bind fun k _ => .expand nofun) ?_
  exact .error _

theorem doubleShift_emits (m : String) (rX rY : Reg) (n : Int) : Emits (doubleShift m rX rY n) := by
  unfold doubleShift
  repeat refine .ite (.bind fun k _ => .expand nofun) ?_
  exact .error _

theorem assembleLine_emits (ds : List Directive) (line : List Token) : Emits (assembleLine ds line) := by
  unfold assembleLine
  split
  case h_1 => exact .bind fun r _ => oneRegister_emits _ r
  case h_2 =>
    exact .ite (.bind fun r _ => branchRegister_emits _ r) <| .ite (.bind fun r _ => parityStatement_emits _ r) <|
      .bind fun r _ => .bind fun q _ => twoRegisters_emits _ r q
  case h_3 =>
    exact .ite (.bind fun r _ => .bind fun d hd => .bind fun imm _ => .single (longImmediate_of_required hd) rfl nofun)
      (.error _)
  case h_4 =>
    exact .ite (.bind fun imm _ => branchAbsolute_emits _ imm) <| .bind fun r _ => registerNumber_emits _ r _
  case h_5 => exact .bind fun r _ => .bind fun q _ => doubleShift_emits _ r q _
  case h_6 => exact .error _

theorem assembleBody_emits (ds : List Directive) (body : List (List Token)) : Emits (assembleBody ds body) := by
  induction body with
  | nil => exact .of_ok nofun
  | cons line rest ih =>
    refine .bind fun is his => .bind fun js hjs => .of_ok fun i hi => ?_
    exact (List.mem_append.mp hi).elim (assembleLine_emits ds line is his i) (ih js hjs i)

/-- A file assembles exactly when its directives are taken without an ambiguous name and its statements expand (R84, R86). -/
theorem assemble_eq_ok_iff {source : List (List Token)} {ws : List IWord} :
    assemble source = .ok ws ↔ ∃ ds body is, takeDirectives source = .ok (ds, body) ∧ ambiguousName ds = none ∧
      assembleBody ds body = .ok is ∧ ws = programOf is := by
  unfold assemble
  cases takeDirectives source with
  | error e => simp
  | ok p =>
    obtain ⟨ds, body⟩ := p
    cases ha : ambiguousName ds with
    | some name => simp [ha]
    | none => simp [ha, asm_bind_eq_ok, eq_comm (a := ws)]

theorem map_decode_programOf {is : List Instr} (h : ∀ i ∈ is, i.wellFormed = true) :
    (programOf is).map decode = is ++ [.done] := by
  have hmap : is.map (decode ∘ encode) = is :=
    (List.map_congr_left fun i hi => decode_encode (h i hi)).trans (List.map_id is)
  rw [programOf, List.map_append, List.map_map, hmap]
  rfl

/-- Settles O48: the words of the instructions, then the termination word; no statement gives the latter (`assembleBody_emits`). -/
theorem assemblerAppendsTermination : Obligations.AssemblerAppendsTermination := by
  intro source body ds is hd ha hb
  refine ⟨programOf is, assemble_eq_ok_iff.mpr ⟨ds, body, is, hd, ha, hb, rfl⟩, ?_, ?_, ?_, ?_⟩
  · simp [programOf]
  · simp [programOf, doneWord]
  · intro k hk
    simp [programOf, List.getElem?_append_left, hk]
  · intro i hi
    obtain ⟨-, -, hdone⟩ := assembleBody_emits ds body is hb i hi
    exact hdone

/-- Settles O49: what a file states has words, and decoding inverts them (`map_decode_programOf`). -/
theorem assembledWordsDecodeBack : Obligations.AssembledWordsDecodeBack := by
  intro source ws h
  obtain ⟨ds, body, is, -, -, hb, rfl⟩ := assemble_eq_ok_iff.mp h
  have his : ∀ i ∈ is, Assemblable i := assembleBody_emits ds body is hb
  exact ⟨is, map_decode_programOf fun i hi => (his i hi).1, his⟩

end Sys2Proof.Machine
end

section
/-! SUPPORT. What the assembler refuses (R87, U12). -/

namespace Sys2Proof.Machine

theorem requireLoadStorable_refuses {r : Reg} (h : r.loadStorable = false) :
    requireLoadStorable r = .error (.notLoadStorable r) := by
  simp [requireLoadStorable, h]

theorem requireLongImmediate_refuses {r : Reg} (h : r.longImmediate = false) :
    requireLongImmediate r = .error (.notLongImmediate r) := by
  simp [requireLongImmediate, h]

theorem requireLongImmediate_accepts {r : Reg} (h : r.longImmediate = true) : requireLongImmediate r = .ok r := by
  simp [requireLongImmediate, h]

theorem requireImmediate_refuses {n : Int} (h : n < -8 ∨ 7 < n) : requireImmediate n = .error (.immediateRange n) :=
  if_neg (by omega)

theorem requireTarget_refuses {n : Int} (h : n < 0 ∨ 7 < n) : requireTarget n = .error (.targetRange n) :=
  if_neg (by omega)

/-- Settles O50: each statement passes its operands through the check that refuses them. -/
theorem unencodableStatementsRefused : Obligations.UnencodableStatementsRefused := by
  intro ds a b r q n ha hb
  refine ⟨fun hq => ?_, fun hr => ?_, fun hr hn => ?_, fun form hn => ?_⟩
  · simp [assembleLine, twoRegisters, ha, hb, requireLoadStorable_refuses hq]
  · simp [assembleLine, registerNumber, ha, requireLongImmediate_refuses hr]
  · simp [assembleLine, registerNumber, ha, requireLongImmediate_accepts hr, requireImmediate_refuses hn]
  · simp [assembleLine, requireTarget_refuses hn]

end Sys2Proof.Machine
end

section
/-! SUPPORT. The macros made of register-type and immediate-type instructions: Zero, Set, Copy, Swap (R191 to R194). -/

namespace Sys2Proof.Machine

/-- The state after an instruction with the ALU result `v` for `d` (`writeResult_eq`). -/
def State.result (s : State) (d : Reg) (v : Byte) : State := ((s.setReg d v).setZN v).advance

theorem writeResult_eq (d : Reg) (v : Byte) (s : State) : writeResult d v s = .next (s.result d v) := rfl

@[simp] theorem State.result_reg (s : State) (d q : Reg) (v : Byte) :
    (s.result d v).reg q = if q = d then v else s.reg q := by
  simp [State.result]

@[simp] theorem State.result_pc (s : State) (d : Reg) (v : Byte) : (s.result d v).pc = s.pc + 1 := rfl
@[simp] theorem State.result_sc (s : State) (d : Reg) (v : Byte) : (s.result d v).sc = s.sc := rfl
@[simp] theorem State.result_done (s : State) (d : Reg) (v : Byte) : (s.result d v).done = s.done := rfl
@[simp] theorem State.result_dmem (s : State) (d : Reg) (v : Byte) : (s.result d v).dmem = s.dmem := rfl
@[simp] theorem State.result_prog (s : State) (d : Reg) (v : Byte) : (s.result d v).prog = s.prog := rfl
@[simp] theorem State.result_z (s : State) (d : Reg) (v : Byte) : (s.result d v).z = zeroFlagOf v := rfl
@[simp] theorem State.result_n (s : State) (d : Reg) (v : Byte) : (s.result d v).n = negativeFlagOf v := rfl

theorem flagsFrom_result (s : State) (d : Reg) (v : Byte) : FlagsFrom ((s.result d v).reg d) (s.result d v) := by
  simp [FlagsFrom, zeroFlagOf_iff, negativeFlagOf]

theorem MacroKeeps.refl (s : State) : MacroKeeps s s := ⟨fun _ => rfl, rfl, rfl⟩

theorem MacroKeeps.result {s t : State} {d : Reg} {v : Byte} (h : MacroKeeps s t) : MacroKeeps s (t.result d v) := h

theorem RegsKeptBut.refl (d : Reg) (s : State) : RegsKeptBut d s s := fun _ _ => rfl

theorem RegsKeptBut.result {s t : State} {d : Reg} {v : Byte} (h : RegsKeptBut d s t) :
    RegsKeptBut d s (t.result d v) := by
  intro q hq
  rw [State.result_reg, if_neg hq, h q hq]

@[simp] theorem execAll_nil (s : State) : execAll [] s = .next s := rfl

/-- An instruction that ends in `writeResult` leads the list on from the state with its result. -/
theorem execAll_cons_of_writeResult {i : Instr} {s u : State} {d : Reg} {v : Byte} (h : exec i s = writeResult d v u)
    (is : List Instr) : execAll (i :: is) s = execAll is (u.result d v) := by
  simp [execAll, h, writeResult_eq]

@[simp] theorem execAll_add (d r : Reg) (is : List Instr) (s : State) :
    execAll (.add d r :: is) s = execAll is (s.result d (s.reg d + s.reg r)) := execAll_cons_of_writeResult rfl is

@[simp] theorem execAll_xor (d r : Reg) (is : List Instr) (s : State) :
    execAll (.xor d r :: is) s = execAll is (s.result d (s.reg d ^^^ s.reg r)) := execAll_cons_of_writeResult rfl is

@[simp] theorem execAll_addl (d : Reg) (imm : BitVec 4) (is : List Instr) (s : State) :
    execAll (.addl d imm :: is) s = execAll is (s.result d (s.reg d + immOperand imm)) := execAll_cons_of_writeResult rfl is

theorem immOperand_eq_ofInt (imm : BitVec 4) : immOperand imm = BitVec.ofInt 8 imm.toInt := rfl

theorem zeroFlagOf_immOperand_iff (imm : BitVec 4) : zeroFlagOf (immOperand imm) = true ↔ imm.toInt = 0 := by
  revert imm; decide

theorem negativeFlagOf_immOperand_iff (imm : BitVec 4) : negativeFlagOf (immOperand imm) = true ↔ imm.toInt < 0 := by
  revert imm; decide

theorem execAll_zero (x : Reg) (s : State) : execAll (expand (.zero x)) s = .next (s.result x 0#8) := by
  simp [expand]

theorem execAll_set (x : Reg) (imm : BitVec 4) (s : State) :
    execAll (expand (.set x imm)) s = .next ((s.result x 0#8).result x (immOperand imm)) := by
  simp [expand]

/-- Copy adds `x[Y]` to a zeroed `x[X]`; where the two are one, the zeroing has destroyed what was to be copied (R193). -/
theorem execAll_copy (x y : Reg) (s : State) :
    execAll (expand (.copy x y)) s = .next ((s.result x 0#8).result x (if x = y then 0#8 else s.reg y)) := by
  by_cases h : x = y
  · simp [expand, h]
  · simp [expand, h, Ne.symm h]

theorem execAll_swap_self (x : Reg) (s : State) :
    execAll (expand (.swap x x)) s = .next (((s.result x 0#8).result x 0#8).result x 0#8) := by
  simp [expand]

/-- Between two different registers each exclusive or after the first cancels one of the two old values (R194). -/
theorem execAll_swap_of_ne {x y : Reg} (h : x ≠ y) (s : State) :
    execAll (expand (.swap x y)) s =
      .next (((s.result x (s.reg x ^^^ s.reg y)).result y (s.reg x)).result x (s.reg y)) := by
  have hy : s.reg y ^^^ (s.reg x ^^^ s.reg y) = s.reg x := by rw [BitVec.xor_comm, BitVec.xor_assoc]; simp
  have hx : s.reg x ^^^ s.reg y ^^^ s.reg x = s.reg y := by rw [BitVec.xor_comm, ← BitVec.xor_assoc]; simp
  simp [expand, h, h.symm, hx, hy]

/-- Settles O52: Zero writes 0; Set writes 0 and then the immediate added to it. -/
theorem zeroAndSetMacros : Obligations.ZeroAndSetMacros := by
  intro x imm s
  constructor
  · refine ⟨_, execAll_zero x s, ?_, (RegsKeptBut.refl x s).result, rfl, rfl, rfl, (MacroKeeps.refl s).result, rfl⟩
    simp
  · refine ⟨_, execAll_set x imm s, ?_, (RegsKeptBut.refl x s).result.result, zeroFlagOf_immOperand_iff imm,
      negativeFlagOf_immOperand_iff imm, rfl, (MacroKeeps.refl s).result.result, ?_⟩
    · simp [immOperand_eq_ofInt]
    · simp [add_assoc]

/-- Settles O53: both results of Copy go to `x[X]`. -/
theorem copyMacro : Obligations.CopyMacro := by
  intro x y s
  refine ⟨_, execAll_copy x y s, ?_, (RegsKeptBut.refl x s).result.result, flagsFrom_result _ x _, rfl,
    (MacroKeeps.refl s).result.result, ?_⟩
  · simp
  · simp [add_assoc]

/-- Settles O54: three exclusive ors exchange two different registers and zero one and the same. -/
theorem swapMacro : Obligations.SwapMacro := by
  intro x y s
  by_cases h : x = y
  · subst h
    refine ⟨_, execAll_swap_self x s, ?_, fun q hq _ => (RegsKeptBut.refl x s).result.result.result q hq,
      flagsFrom_result _ x _, rfl, (MacroKeeps.refl s).result.result.result, ?_⟩
    · simp
    · simp [add_assoc]
  · refine ⟨_, execAll_swap_of_ne h s, ?_, ?_, flagsFrom_result _ x _, rfl,
      (MacroKeeps.refl s).result.result.result, ?_⟩
    · simp [h, Ne.symm h]
    · intro q hx hy
      simp [hx, hy]
    · simp [add_assoc]

end Sys2Proof.Machine
end

section
/-! SUPPORT. Result and frame of the memory-type instructions (R110 to R112), and a Load right after a Store (R54). -/

namespace Sys2Proof.Machine

theorem exec_load (a d : Reg) (s : State) :
    exec (.load a d) s = .next (s.setReg d (s.memRead (effectiveAddress a s))).drawZN.advance := rfl

theorem exec_store (a d : Reg) (s : State) :
    exec (.store a d) s = .next (s.memWrite (effectiveAddress a s) (s.reg d)).drawZN.advance := rfl

theorem effectiveAddress_eq_of_regsKept {s t : State} (h : RegsKept s t) (a : Reg) :
    effectiveAddress a t = effectiveAddress a s := h a

/-- Settles O9: the address and the cell are read before the data register is written, the only register that is. -/
theorem loadResult : Obligations.LoadResult := by
  intro a d s
  refine ⟨rfl, _, exec_load a d s, ?_, ?_, fun _ => rfl, rfl, rfl, rfl, rfl⟩
  · simp [State.memRead]
  · intro q hq
    simp [hq]

/-- Settles O10: the cells are those of `Memory.read_write`, at the effective address and at every other. -/
theorem storeResult : Obligations.StoreResult := by
  intro a d s
  refine ⟨rfl, _, exec_store a d s, ?_, ?_, fun _ => rfl, rfl, rfl, rfl, rfl⟩
  · simp [Memory.read_write]
  · intro b hb
    simp [Memory.read_write, hb]

/-- Settles O11: Store keeps the address register, so the Load reads the very cell that was written. -/
theorem storeThenLoadReturnsValue : Obligations.StoreThenLoadReturnsValue := by
  intro a d e s
  obtain ⟨-, t, hstore, hcell, -, hregs, -⟩ := storeResult a d s
  obtain ⟨-, u, hload, hreg, -⟩ := loadResult a e t
  refine ⟨t, u, hstore, hload, ?_⟩
  rw [hreg, effectiveAddress_eq_of_regsKept hregs, hcell]

end Sys2Proof.Machine
end

section
/-! SUPPORT. Result and frame of the Shift group's instructions (R130 to R135). -/

namespace Sys2Proof.Machine

theorem shiftLeftIn_eq_or (a : Byte) (b : Bool) : shiftLeftIn a b = a <<< 1 ||| (if b then 0x01#8 else 0x00#8) := by
  revert a b; decide

theorem shiftRightIn_eq_or (a : Byte) (b : Bool) : shiftRightIn b a = a >>> 1 ||| (if b then 0x80#8 else 0x00#8) := by
  revert a b; decide

theorem shiftRightIn_lowest (a : Byte) : shiftRightIn (a.getLsbD 0) a = a.rotateRight 1 := by
  revert a; decide

theorem exec_lshift (x : Reg) (s : State) :
    exec (.lshift x) s = writeResult x (s.reg x <<< 1) (s.setSC ((s.reg x).getLsbD 7)) := by
  simp [exec, execLShift, shiftLeftIn_eq_or]

theorem exec_rshift (x : Reg) (s : State) :
    exec (.rshift x) s = writeResult x (s.reg x >>> 1) (s.setSC ((s.reg x).getLsbD 0)) := by
  simp [exec, execRShift, shiftRightIn_eq_or]

theorem exec_rotate (x : Reg) (s : State) : exec (.rotate x) s = writeResult x ((s.reg x).rotateRight 1) s :=
  congrArg (writeResult x · s) (shiftRightIn_lowest (s.reg x))

theorem exec_dplsh (x : Reg) (s : State) : exec (.dplsh x) s = writeResult x (shiftLeftIn (s.reg x) s.sc) s := rfl

theorem exec_dprsh (x : Reg) (s : State) : exec (.dprsh x) s = writeResult x (shiftRightIn s.sc (s.reg x)) s := rfl

/-- Settles O13: LShift ends in `writeResult`, after SC took the bit shifted out. -/
theorem lShiftResult : Obligations.LShiftResult := by
  intro x s
  rw [exec_lshift]
  exact writeResult_spec x _ (s.setSC _)

/-- Settles O14: RShift ends in `writeResult`, after SC took the bit shifted out. -/
theorem rShiftResult : Obligations.RShiftResult := by
  intro x s
  rw [exec_rshift]
  exact writeResult_spec x _ (s.setSC _)

/-- Settles O15: Rotate ends in `writeResult`. -/
theorem rotateResult : Obligations.RotateResult := by
  intro x s
  rw [exec_rotate]
  exact writeResult_spec x _ s

/-- Settles O16: DPLSh ends in `writeResult`. -/
theorem dplShResult : Obligations.DPLShResult := by
  intro x s
  rw [exec_dplsh, shiftLeftIn_eq_or]
  exact writeResult_spec x _ s

/-- Settles O17: DPRSh ends in `writeResult`. -/
theorem dprShResult : Obligations.DPRShResult := by
  intro x s
  rw [exec_dprsh, shiftRightIn_eq_or]
  exact writeResult_spec x _ s

end Sys2Proof.Machine
end

section
/-! SUPPORT. The repeat macros (R195 to R199): `n` rounds of one or two shifts. A round is a function on states, the
expansion runs its iterate, and what the iterate does to a register, a pair of registers or SC follows from what one round
does to it. -/

namespace Sys2Proof.Machine

open Function

/-! ### One place, `n` times over -/

section Iterate

variable {α : Type} {w : Nat} {f : α → α}

theorem iterate_of_ushiftRight_one {p : α → BitVec w} (hp : ∀ a, p (f a) = p a >>> 1) (n : Nat) (a : α) :
    p (f^[n] a) = p a >>> n := by
  induction n with
  | zero => simp
  | succ n ih => rw [iterate_succ_apply', hp, ih, BitVec.shiftRight_add]

theorem iterate_of_shiftLeft_one {p : α → BitVec w} (hp : ∀ a, p (f a) = p a <<< 1) (n : Nat) (a : α) :
    p (f^[n] a) = p a <<< n := by
  induction n with
  | zero => simp
  | succ n ih => rw [iterate_succ_apply', hp, ih, BitVec.shiftLeft_add]

theorem rotateRight_zero (v : Byte) : v.rotateRight 0 = v := by
  ext i hi
  simp [BitVec.getElem_rotateRight, hi]

theorem rotateRight_rotateRight_one (v : Byte) (n : Nat) :
    (v.rotateRight (n % 8)).rotateRight 1 = v.rotateRight ((n + 1) % 8) := by
  ext i hi
  simp only [BitVec.getElem_rotateRight]
  grind

theorem iterate_of_rotateRight_one {p : α → Byte} (hp : ∀ a, p (f a) = (p a).rotateRight 1) (n : Nat) (a : α) :
    p (f^[n] a) = (p a).rotateRight (n % 8) := by
  induction n with
  | zero => exact (rotateRight_zero (p a)).symm
  | succ n ih => rw [iterate_succ_apply', hp, ih, rotateRight_rotateRight_one]

end Iterate

/-- The halves of a 16-bit right shift: the low one takes in the bit the high one loses (R132, R135). -/
theorem append_ushiftRight_one (a b : Byte) : (a ++ b : BitVec 16) >>> 1 = a >>> 1 ++ shiftRightIn (a.getLsbD 0) b := by
  ext i hi
  grind [shiftRightIn]

/-- The halves of a 16-bit left shift: the high one takes in the bit the low one loses (R131, R134). -/
theorem append_shiftLeft_one (a b : Byte) : (a ++ b : BitVec 16) <<< 1 = shiftLeftIn a (b.getLsbD 7) ++ b <<< 1 := by
  ext i hi
  grind [shiftLeftIn]

/-! ### Rounds -/

/-- Running the first part of a list leads to where the rest starts. -/
theorem execAll_append {is : List Instr} {s t : State} (h : execAll is s = .next t) (js : List Instr) :
    execAll (is ++ js) s = execAll js t := by
  induction is generalizing s with
  | nil => cases h; rfl
  | cons i is ih =>
    simp only [List.cons_append, execAll] at h ⊢
    split at h
    · exact ih h
    · cases h
    · cases h

/-- `n` rounds that always complete run the iterate of the round. -/
theorem execAll_repeated {is : List Instr} {f : State → State} (h : ∀ s, execAll is s = .next (f s)) (n : Nat)
    (s : State) : execAll (repeated n is) s = .next (f^[n] s) := by
  induction n generalizing s with
  | zero => rfl
  | succ n ih => rw [repeated, execAll_append (h s), ih, iterate_succ_apply]

/-- What one round of `w` instructions does besides SC and the values of `x` and `y`, the last of them writing `y`. -/
structure Round (x y : Reg) (w : Int) (f : State → State) : Prop where
  regs (s : State) (q : Reg) : q ≠ x → q ≠ y → (f s).reg q = s.reg q
  flags (s : State) : FlagsFrom ((f s).reg y) (f s)
  keeps (s : State) : MacroKeeps s (f s)
  pc (s : State) : (f s).pc = s.pc + w

section Round

variable {x y : Reg} {w : Int} {f : State → State} (hf : Round x y w f)
include hf

theorem Round.iterate_regs (n : Nat) (s : State) (q : Reg) (hx : q ≠ x) (hy : q ≠ y) : (f^[n] s).reg q = s.reg q :=
  congrFun (iterate_invariant (g := (State.reg · q)) (funext fun s => hf.regs s q hx hy) n) s

/-- No round changes nothing; otherwise Z and N follow the last result, of the last round (D30). -/
theorem Round.iterate_flags (n : Nat) (s : State) :
    if n = 0 then f^[n] s = s else FlagsFrom ((f^[n] s).reg y) (f^[n] s) := by
  cases n with
  | zero => rfl
  | succ n => rw [iterate_succ_apply']; exact hf.flags _

theorem Round.iterate_keeps (n : Nat) (s : State) : MacroKeeps s (f^[n] s) := by
  induction n with
  | zero => exact .refl s
  | succ n ih =>
    obtain ⟨hcells, hprog, hdone⟩ := hf.keeps (f^[n] s)
    obtain ⟨hcells', hprog', hdone'⟩ := ih
    rw [iterate_succ_apply']
    exact ⟨fun a => (hcells a).trans (hcells' a), hprog.trans hprog', hdone.trans hdone'⟩

theorem Round.iterate_pc (n : Nat) (s : State) : (f^[n] s).pc = s.pc + w * n := by
  induction n with
  | zero => simp
  | succ n ih => rw [iterate_succ_apply', hf.pc, ih]; push_cast; ring

end Round

section ShiftCarry

variable {f : State → State} {x : Reg}

/-- The last bit that left `x` in `n` right shifts is its old bit n-1. -/
theorem iterate_sc_of_ushiftRight_one (hx : ∀ s, (f s).reg x = s.reg x >>> 1)
    (hsc : ∀ s, (f s).sc = (s.reg x).getLsbD 0) (n : Nat) (s : State) :
    (f^[n] s).sc = if n = 0 then s.sc else (s.reg x).getLsbD (n - 1) := by
  cases n with
  | zero => rfl
  | succ n => simp [iterate_succ_apply', hsc, iterate_of_ushiftRight_one (p := (State.reg · x)) hx]

/-- The last bit that left `x` in `n` left shifts is its old bit 8-n, and 0 once all eight have left. -/
theorem iterate_sc_of_shiftLeft_one (hx : ∀ s, (f s).reg x = s.reg x <<< 1)
    (hsc : ∀ s, (f s).sc = (s.reg x).getLsbD 7) (n : Nat) (s : State) :
    (f^[n] s).sc = if n = 0 then s.sc else if n ≤ 8 then (s.reg x).getLsbD (8 - n) else false := by
  cases n with
  | zero => rfl
  | succ n =>
    rw [iterate_succ_apply', hsc, iterate_of_shiftLeft_one (p := (State.reg · x)) hx, BitVec.getLsbD_shiftLeft]
    grind

end ShiftCarry

/-! ### The five rounds -/

/-- The state after RShift (R132). -/
def State.rshifted (x : Reg) (s : State) : State := (s.setSC ((s.reg x).getLsbD 0)).result x (s.reg x >>> 1)

/-- The state after LShift (R131). -/
def State.lshifted (x : Reg) (s : State) : State := (s.setSC ((s.reg x).getLsbD 7)).result x (s.reg x <<< 1)

/-- The state after Rotate (R133). -/
def State.rotated (x : Reg) (s : State) : State := s.result x ((s.reg x).rotateRight 1)

/-- The state after RShift of `x`, then DPRSh of another register `y` (R132, R135). -/
def State.doubleRShifted (x y : Reg) (s : State) : State :=
  (s.rshifted x).result y (shiftRightIn ((s.reg x).getLsbD 0) (s.reg y))

/-- The state after LShift of `x`, then DPLSh of another register `y` (R131, R134). -/
def State.doubleLShifted (x y : Reg) (s : State) : State :=
  (s.lshifted x).result y (shiftLeftIn (s.reg y) ((s.reg x).getLsbD 7))

theorem State.rshifted_reg (x : Reg) (s : State) : (s.rshifted x).reg x = s.reg x >>> 1 := by
  simp [State.rshifted]

theorem State.lshifted_reg (x : Reg) (s : State) : (s.lshifted x).reg x = s.reg x <<< 1 := by
  simp [State.lshifted]

theorem State.rotated_reg (x : Reg) (s : State) : (s.rotated x).reg x = (s.reg x).rotateRight 1 := by
  simp [State.rotated]

section Different

variable {x y : Reg} (h : x ≠ y)
include h

theorem State.doubleRShifted_reg_fst (s : State) : (s.doubleRShifted x y).reg x = s.reg x >>> 1 := by
  simp [State.doubleRShifted, State.rshifted, h]

theorem State.doubleLShifted_reg_fst (s : State) : (s.doubleLShifted x y).reg x = s.reg x <<< 1 := by
  simp [State.doubleLShifted, State.lshifted, h]

theorem State.doubleRShifted_pair (s : State) :
    (s.doubleRShifted x y).reg x ++ (s.doubleRShifted x y).reg y = (s.reg x ++ s.reg y) >>> 1 := by
  rw [append_ushiftRight_one, State.doubleRShifted_reg_fst h]
  simp [State.doubleRShifted]

theorem State.doubleLShifted_pair (s : State) :
    (s.doubleLShifted x y).reg y ++ (s.doubleLShifted x y).reg x = (s.reg y ++ s.reg x) <<< 1 := by
  rw [append_shiftLeft_one, State.doubleLShifted_reg_fst h]
  simp [State.doubleLShifted]

end Different

theorem execAll_rshift (x : Reg) (is : List Instr) (s : State) :
    execAll (.rshift x :: is) s = execAll is (s.rshifted x) := execAll_cons_of_writeResult (exec_rshift x s) is

theorem execAll_lshift (x : Reg) (is : List Instr) (s : State) :
    execAll (.lshift x :: is) s = execAll is (s.lshifted x) := execAll_cons_of_writeResult (exec_lshift x s) is

theorem execAll_rotate (x : Reg) (is : List Instr) (s : State) :
    execAll (.rotate x :: is) s = execAll is (s.rotated x) := execAll_cons_of_writeResult (exec_rotate x s) is

/-- RShift hands the bit it shifts out to the DPRSh right after it (R198). -/
theorem execAll_rshift_dprsh {x y : Reg} (h : x ≠ y) (s : State) :
    execAll [.rshift x, .dprsh y] s = .next (s.doubleRShifted x y) := by
  rw [execAll_rshift, execAll_cons_of_writeResult (exec_dprsh y _)]
  simp [State.doubleRShifted, State.rshifted, h.symm]

/-- LShift hands the bit it shifts out to the DPLSh right after it (R199). -/
theorem execAll_lshift_dplsh {x y : Reg} (h : x ≠ y) (s : State) :
    execAll [.lshift x, .dplsh y] s = .next (s.doubleLShifted x y) := by
  rw [execAll_lshift, execAll_cons_of_writeResult (exec_dplsh y _)]
  simp [State.doubleLShifted, State.lshifted, h.symm]

/-- One instruction with an ALU result is a round. -/
theorem Round.single (x : Reg) (c : State → Bool) (v : State → Byte) :
    Round x x 1 fun s => (s.setSC (c s)).result x (v s) where
  regs s q hq _ := by simp [hq]
  flags s := flagsFrom_result _ x _
  keeps s := MacroKeeps.refl s
  pc s := rfl

/-- Two instructions with ALU results are a round. -/
theorem Round.double (x y : Reg) (c : State → Bool) (v v' : State → Byte) :
    Round x y 2 fun s => ((s.setSC (c s)).result x (v s)).result y (v' s) where
  regs s q hx hy := by simp [hx, hy]
  flags s := flagsFrom_result _ y _
  keeps s := MacroKeeps.refl s
  pc s := add_assoc s.pc 1 1

theorem round_rshifted (x : Reg) : Round x x 1 (State.rshifted x) := .single x _ _

theorem round_lshifted (x : Reg) : Round x x 1 (State.lshifted x) := .single x _ _

theorem round_rotated (x : Reg) : Round x x 1 (State.rotated x) := .single x State.sc _

theorem round_doubleRShifted (x y : Reg) : Round x y 2 (State.doubleRShifted x y) := .double x y _ _ _

theorem round_doubleLShifted (x y : Reg) : Round x y 2 (State.doubleLShifted x y) := .double x y _ _ _

/-! ### The five macros -/

/-- Settles O55: a round shifts the register right by one and leaves its old bit 0 in SC. -/
theorem repeatedRShift : Obligations.RepeatedRShift := by
  intro x n s
  have hround := round_rshifted x
  refine ⟨_, execAll_repeated (execAll_rshift x []) n s,
    iterate_of_ushiftRight_one (p := (State.reg · x)) (State.rshifted_reg x) n s,
    fun q hq => hround.iterate_regs n s q hq hq, ?_, hround.iterate_flags n s, hround.iterate_keeps n s, ?_⟩
  · have hout : 8 < n → (s.reg x).getLsbD (n - 1) = false := fun hn => BitVec.getLsbD_of_ge _ _ (by omega)
    rw [iterate_sc_of_ushiftRight_one (State.rshifted_reg x) fun _ => rfl]
    grind
  · simpa using hround.iterate_pc n s

/-- Settles O56: a round shifts the register left by one and leaves its old bit 7 in SC. -/
theorem repeatedLShift : Obligations.RepeatedLShift := by
  intro x n s
  have hround := round_lshifted x
  refine ⟨_, execAll_repeated (execAll_lshift x []) n s,
    iterate_of_shiftLeft_one (p := (State.reg · x)) (State.lshifted_reg x) n s,
    fun q hq => hround.iterate_regs n s q hq hq, iterate_sc_of_shiftLeft_one (State.lshifted_reg x) (fun _ => rfl) n s,
    hround.iterate_flags n s, hround.iterate_keeps n s, ?_⟩
  simpa using hround.iterate_pc n s

/-- Settles O57: a round rotates the register right by one and keeps SC. -/
theorem repeatedRotate : Obligations.RepeatedRotate := by
  intro x n s
  have hround := round_rotated x
  have hsc : State.sc ∘ State.rotated x = State.sc := rfl
  refine ⟨_, execAll_repeated (execAll_rotate x []) n s,
    iterate_of_rotateRight_one (p := (State.reg · x)) (State.rotated_reg x) n s,
    fun q hq => hround.iterate_regs n s q hq hq, congrFun (iterate_invariant hsc n) s,
    hround.iterate_flags n s, hround.iterate_keeps n s, ?_⟩
  simpa using hround.iterate_pc n s

/-- Settles O58: a round shifts the 16-bit value right by one and leaves the old bit 0 of `x[X]` in SC. -/
theorem doubleRShiftIsSixteenBitShift : Obligations.DoubleRShiftIsSixteenBitShift := by
  intro x y n s hxy
  have hround := round_doubleRShifted x y
  exact ⟨_, execAll_repeated (execAll_rshift_dprsh hxy) n s,
    iterate_of_ushiftRight_one (p := fun s => s.reg x ++ s.reg y) (State.doubleRShifted_pair hxy) n s,
    hround.iterate_regs n s,
    iterate_sc_of_ushiftRight_one (State.doubleRShifted_reg_fst hxy) (fun _ => rfl) n s,
    hround.iterate_flags n s, hround.iterate_keeps n s, hround.iterate_pc n s⟩

/-- Settles O59: a round shifts the 16-bit value left by one and leaves the old bit 7 of `x[X]` in SC. -/
theorem doubleLShiftIsSixteenBitShift : Obligations.DoubleLShiftIsSixteenBitShift := by
  intro x y n s hxy
  have hround := round_doubleLShifted x y
  exact ⟨_, execAll_repeated (execAll_lshift_dplsh hxy) n s,
    iterate_of_shiftLeft_one (p := fun s => s.reg y ++ s.reg x) (State.doubleLShifted_pair hxy) n s,
    hround.iterate_regs n s,
    iterate_sc_of_shiftLeft_one (State.doubleLShifted_reg_fst hxy) (fun _ => rfl) n s,
    hround.iterate_flags n s, hround.iterate_keeps n s, hround.iterate_pc n s⟩

end Sys2Proof.Machine
end

section
/-! SUPPORT. The Branch group, taken and not taken (R140 to R150). -/

namespace Sys2Proof.Machine

theorem relativeTarget_eq (x : Reg) (s : State) : relativeTarget x s = s.pc + (s.reg x).toInt := by
  simp [relativeTarget, relBase]

theorem branchTo_not_spec (flag : Bool) (target : Int) (s : State) :
    ∃ t, branchTo (!flag) target s = .next t ∧ BranchKeeps s t ∧ t.pc = if flag = false then target else s.pc + 1 := by
  simpa using branchTo_spec (!flag) target s

/-- Settles O19: each form is `branchTo` of a flag or its negation, and the relative base is 0. -/
theorem relativeBranches : Obligations.RelativeBranches := by
  intro x s
  rw [← relativeTarget_eq x s]
  exact ⟨branchTo_spec s.z _ s, branchTo_spec s.n _ s, branchTo_not_spec s.z _ s, branchTo_not_spec s.n _ s⟩

/-- Settles O20: each form is `branchTo` of a flag or its negation. -/
theorem absoluteBranches : Obligations.AbsoluteBranches := fun _ s =>
  ⟨branchTo_spec s.z _ s, branchTo_spec s.n _ s, branchTo_not_spec s.z _ s, branchTo_not_spec s.n _ s⟩

end Sys2Proof.Machine
end

section
/-! SUPPORT. Who reads Z and N (R140): every other instruction that completes overwrites both without reading them. -/

namespace Sys2Proof.Machine

theorem writeResult_overwrites_flags (d : Reg) (v : Byte) (s : State) (a b : Bool) :
    writeResult d v { s with z := a, n := b } = writeResult d v s := rfl

theorem writeIfRawLayout_overwrites_flags (d : Reg) (v : Byte) (s : State) (a b : Bool) :
    writeIfRawLayout d v { s with z := a, n := b } = writeIfRawLayout d v s := by
  have hmsw : State.msw { s with z := a, n := b } = s.msw := rfl
  unfold writeIfRawLayout
  rw [hmsw]
  split
  · exact writeResult_overwrites_flags d v s a b
  · exact writeResult_overwrites_flags d (Config.freeByte s.draws) s.countDraw a b

/-- Settles O34: an instruction that is no branch ends in `writeResult`, `writeIfRawLayout` or `State.drawZN`, which overwrite
Z and N, or it faults. -/
theorem zeroNegativeReadOnlyByBranches : Obligations.ZeroNegativeReadOnlyByBranches := by
  intro i s a b hi
  cases i with
  | add | xor | and | addl | rotate | dplsh | dprsh | parityCalcP0 | parityPackLSW | parityUnpackLSW =>
    exact writeResult_overwrites_flags _ _ s a b
  | lshift | rshift => exact writeResult_overwrites_flags _ _ (s.setSC _) a b
  | parityCalcP1 | parityCalcP2 | parityCalcP4 | parityCalcP8 | parityPackMSW =>
    exact writeIfRawLayout_overwrites_flags _ _ s a b
  | load | store | done => rfl -- `State.drawZN` overwrites both flags
  | undefMode001 | undefMode101 | undefMode111 => rfl -- the fault names the word and `pc`
  | branchIfZeroReg | branchIfZeroAbs | branchIfNegativeReg | branchIfNegativeAbs
  | branchIfNotZeroReg | branchIfNotZeroAbs | branchIfNotNegativeReg | branchIfNotNegativeAbs => cases hi

end Sys2Proof.Machine
end

section
/-! SUPPORT. The pictures of the Parity group's results, bit by bit (R164 to R170), and as the statements
write them out. -/

namespace Sys2Proof.Machine

theorem element_getLsbD (x0 x1 : Byte) (i : Nat) :
    (element x0 x1).getLsbD i = if i < 8 then x0.getLsbD i else x1.getLsbD (i - 8) := BitVec.getLsbD_append

@[simp] theorem p0Picture_getElem (p : Bool) (i : Nat) (hi : i < 8) : (p0Picture p)[i] = (decide (i = 0) && p) := by
  revert i p; decide

@[simp] theorem p1Picture_getElem (p : Bool) (i : Nat) (hi : i < 8) : (p1Picture p)[i] = (decide (i = 1) && p) := by
  revert i p; decide

@[simp] theorem p2Picture_getElem (p : Bool) (i : Nat) (hi : i < 8) : (p2Picture p)[i] = (decide (i = 2) && p) := by
  revert i p; decide

@[simp] theorem p4Picture_getElem (p : Bool) (i : Nat) (hi : i < 8) : (p4Picture p)[i] = (decide (i = 4) && p) := by
  revert i p; decide

@[simp] theorem p8Picture_getElem (p : Bool) (i : Nat) (hi : i < 8) : (p8Picture p)[i] = (decide (i = 0) && p) :=
  p0Picture_getElem p i hi

/-- `b1` goes to bit 3 and `b2` to `b4` to bits 5 to 7 (R169). -/
@[simp] theorem packLSWPicture_getElem (x0 : Byte) (i : Nat) (hi : i < 8) :
    (packLSWPicture x0)[i] = if i = 3 then x0.getLsbD 0 else decide (5 ≤ i) && x0.getLsbD (i - 4) := by
  interval_cases i <;> grind [packLSWPicture]

/-- `b5` to `b8` go to bits 1 to 4 and `b9` to `b11` to bits 5 to 7 (R170). -/
@[simp] theorem packMSWPicture_getElem (x0 x1 : Byte) (i : Nat) (hi : i < 8) :
    (packMSWPicture x0 x1)[i] = if 5 ≤ i then x1.getLsbD (i - 5) else decide (i ≠ 0) && x0.getLsbD (i + 3) := by
  interval_cases i <;> grind [packMSWPicture]

@[simp] theorem defaultUnpackLSW_getElem (x0 x1 : Byte) (i : Nat) (hi : i < 8) :
    (defaultUnpackLSW x0 x1)[i] = (decide (i < 4) && x0.getLsbD (if i = 0 then 3 else i + 4)) := by
  interval_cases i <;> grind [defaultUnpackLSW]

theorem p0Picture_eq_ite (p : Bool) : p0Picture p = if p then 0b00000001#8 else 0#8 := by cases p <;> rfl

theorem p1Picture_eq_ite (p : Bool) : p1Picture p = if p then 0b00000010#8 else 0#8 := by cases p <;> rfl

theorem p2Picture_eq_ite (p : Bool) : p2Picture p = if p then 0b00000100#8 else 0#8 := by cases p <;> rfl

theorem p4Picture_eq_ite (p : Bool) : p4Picture p = if p then 0b00010000#8 else 0#8 := by cases p <;> rfl

theorem p8Picture_eq_ite (p : Bool) : p8Picture p = if p then 0b00000001#8 else 0#8 := by cases p <;> rfl

theorem packLSWPicture_eq_masks (x0 : Byte) :
    packLSWPicture x0 = ((x0 &&& 0x0E#8) <<< 4) ||| ((x0 &&& 0x01#8) <<< 3) := by
  ext i hi
  rw [packLSWPicture_getElem]
  interval_cases i <;> simp

theorem packMSWPicture_eq_mask (x0 x1 : Byte) :
    packMSWPicture x0 x1 = (((x1 ++ x0 : BitVec 16) >>> 3).setWidth 8) &&& 0xFE#8 := by
  ext i hi
  rw [packMSWPicture_getElem]
  interval_cases i <;> grind

end Sys2Proof.Machine
end

section
/-! SUPPORT. Result and frame of the Parity group's instructions, on the raw layout and on a violated one (R163 to R172). -/

namespace Sys2Proof.Machine

theorem rawLayout_iff (x1 : Byte) : rawLayout x1 = true ↔ x1.toNat < 8 := by
  simp only [rawLayout, beq_iff_eq, ← BitVec.toNat_inj, BitVec.extractLsb'_toNat, Nat.shiftRight_eq_div_pow,
    BitVec.toNat_ofNat]
  omega

theorem writeIfRawLayout_of_raw {s : State} (h : (s.reg .r1).toNat < 8) (d : Reg) (v : Byte) :
    writeIfRawLayout d v s = writeResult d v s :=
  if_pos ((rawLayout_iff s.msw).mpr h)

theorem writeIfRawLayout_of_violated {s : State} (h : 8 ≤ (s.reg .r1).toNat) (d : Reg) (v : Byte) :
    writeIfRawLayout d v s = writeResult d (Config.freeByte s.draws) s.countDraw :=
  if_neg fun hraw => absurd ((rawLayout_iff s.msw).mp hraw) (Nat.not_lt.mpr h)

theorem writeIfRawLayout_spec_of_raw {s : State} (h : (s.reg .r1).toNat < 8) (d : Reg) (v : Byte) :
    ∃ t, writeIfRawLayout d v s = .next t ∧ WritesResult d v s t ∧ t.sc = s.sc ∧ t.draws = s.draws :=
  writeIfRawLayout_of_raw h d v ▸ writeResult_spec d v s

/-- On a violated layout the frame and the flags are those of any result: the draw changes no more than the counter (R172). -/
theorem writeIfRawLayout_spec_of_violated {s : State} (h : 8 ≤ (s.reg .r1).toNat) (d : Reg) (v : Byte) :
    ∃ t, writeIfRawLayout d v s = .next t ∧ WritesResult d (t.reg d) s t ∧ t.sc = s.sc ∧ t.draws = s.draws + 1 := by
  obtain ⟨t, ht, hw, hsc, hdraws⟩ := writeResult_spec d (Config.freeByte s.draws) s.countDraw
  have hreg : t.reg d = Config.freeByte s.draws := hw.1
  exact ⟨t, (writeIfRawLayout_of_violated h d v).trans ht, hreg ▸ hw, hsc, hdraws⟩

/-- Settles O21: CalcP0 ends in `writeResult` on every layout. -/
theorem calcP0Result : Obligations.CalcP0Result := by
  intro x s
  rw [← p0Picture_eq_ite]
  exact writeResult_spec x _ s

/-- Settles O22: on the raw layout the four end in `writeResult`, each with its own picture. -/
theorem calcParityResults : Obligations.CalcParityResults := by
  intro x s h
  rw [← p1Picture_eq_ite, ← p2Picture_eq_ite, ← p4Picture_eq_ite, ← p8Picture_eq_ite]
  refine ⟨?_, ?_, ?_, ?_⟩ <;> exact writeIfRawLayout_spec_of_raw h x _

/-- Settles O23: PackLSW ends in `writeResult` on every layout. -/
theorem packLSWResult : Obligations.PackLSWResult := by
  intro x s
  rw [← packLSWPicture_eq_masks]
  exact writeResult_spec x _ s

/-- Settles O24: on the raw layout PackMSW ends in `writeResult`. -/
theorem packMSWResult : Obligations.PackMSWResult := by
  intro x s h
  rw [← packMSWPicture_eq_mask]
  exact writeIfRawLayout_spec_of_raw h x _

/-- Settles O25: UnpackLSW ends in `writeResult` on every layout. -/
theorem unpackLSWResult : Obligations.UnpackLSWResult := fun x s =>
  writeResult_spec x (unpackLSW (s.reg .r0) (s.reg .r1)) s

/-- Settles O26: the five end in `writeIfRawLayout`, which on a violated layout writes a fresh draw as its result. -/
theorem violatedLayoutStillRuns : Obligations.ViolatedLayoutStillRuns := by
  intro x s h i hi
  simp only [List.mem_cons, List.not_mem_nil, or_false] at hi
  obtain rfl | rfl | rfl | rfl | rfl := hi <;> exact writeIfRawLayout_spec_of_violated h x _

end Sys2Proof.Machine
end

section
/-! SUPPORT. The packed layout put together from the results (R161, R173): every bit has one place, so adding carries nothing. -/

namespace Sys2Proof.Machine

theorem add_eq_xor_of_and_eq_zero {w : Nat} {a b : BitVec w} (h : a &&& b = 0#w) : a + b = a ^^^ b := by
  rw [BitVec.add_eq_or_of_and_eq_zero a b h]
  ext i hi
  have hbit : (a[i] && b[i]) = false := by simpa using congrArg (·[i]) h
  grind

theorem packMSWPicture_and_p8Picture (x0 x1 : Byte) (p : Bool) : packMSWPicture x0 x1 &&& p8Picture p = 0#8 := by
  ext i hi
  by_cases h : i = 0 <;> simp [h]

theorem packLSWPicture_and_p4Picture (x0 : Byte) (p : Bool) : packLSWPicture x0 &&& p4Picture p = 0#8 := by
  ext i hi
  by_cases h : i = 4 <;> simp [h]

theorem packLSWPicture_xor_and_p2Picture (x0 : Byte) (p4 p2 : Bool) :
    (packLSWPicture x0 ^^^ p4Picture p4) &&& p2Picture p2 = 0#8 := by
  ext i hi
  by_cases h : i = 2 <;> simp [h]

theorem packLSWPicture_xor_xor_and_p1Picture (x0 : Byte) (p4 p2 p1 : Bool) :
    (packLSWPicture x0 ^^^ p4Picture p4 ^^^ p2Picture p2) &&& p1Picture p1 = 0#8 := by
  ext i hi
  by_cases h : i = 1 <;> simp [h]

/-- Settles O28: each picture added has its bit at a place where those before it have 0. -/
theorem packedHalvesCombine : Obligations.PackedHalvesCombine := by
  intro x0 x1 p1 p2 p4 p8
  refine ⟨add_eq_xor_of_and_eq_zero (packMSWPicture_and_p8Picture x0 x1 p8), ?_, by simp⟩
  rw [add_eq_xor_of_and_eq_zero (packLSWPicture_and_p4Picture x0 p4),
    add_eq_xor_of_and_eq_zero (packLSWPicture_xor_and_p2Picture x0 p4 p2),
    add_eq_xor_of_and_eq_zero (packLSWPicture_xor_xor_and_p1Picture x0 p4 p2 p1)]

end Sys2Proof.Machine
end

section
/-! SUPPORT. The packed word with the spec's default parity functions (R161, R162): the exclusive or over the places a parity bit
covers is that bit and its default function, so it is 0 when the bit is what the function gives. -/

namespace Sys2Proof.Machine

/-- The packed LSW with its bit 0 still free for `p0` (R161). -/
def packedLow (x0 : Byte) (p1 p2 p4 : Bool) : Byte :=
  packLSWPicture x0 ^^^ p4Picture p4 ^^^ p2Picture p2 ^^^ p1Picture p1

/-- The packed MSW (R161). -/
def packedMSW (x0 x1 : Byte) (p8 : Bool) : Byte := packMSWPicture x0 x1 ^^^ p8Picture p8

section Packed

variable (x0 x1 : Byte) (p0 p1 p2 p4 p8 : Bool)

/-- The packed word of the datum in `x0`, `x1` with the parity bits given (R161). -/
def packedElement : BitVec 16 := element (packedLow x0 p1 p2 p4 ^^^ p0Picture p0) (packedMSW x0 x1 p8)

theorem packedElement_places_p1 :
    xorBits (packedElement x0 x1 p0 p1 p2 p4 p8) [1, 3, 5, 7, 9, 11, 13, 15] = (p1 ^^ hammingP1 x0 x1) := by
  simp [xorBits, packedElement, packedLow, packedMSW, hammingP1, element_getLsbD]

theorem packedElement_places_p2 :
    xorBits (packedElement x0 x1 p0 p1 p2 p4 p8) [2, 3, 6, 7, 10, 11, 14, 15] = (p2 ^^ hammingP2 x0 x1) := by
  simp [xorBits, packedElement, packedLow, packedMSW, hammingP2, element_getLsbD]

theorem packedElement_places_p4 :
    xorBits (packedElement x0 x1 p0 p1 p2 p4 p8) [4, 5, 6, 7, 12, 13, 14, 15] = (p4 ^^ hammingP4 x0 x1) := by
  simp [xorBits, packedElement, packedLow, packedMSW, hammingP4, element_getLsbD]

theorem packedElement_places_p8 :
    xorBits (packedElement x0 x1 p0 p1 p2 p4 p8) [8, 9, 10, 11, 12, 13, 14, 15] = (p8 ^^ hammingP8 x0 x1) := by
  simp [xorBits, packedElement, packedLow, packedMSW, hammingP8, element_getLsbD]

/-- PARITY_P0 covers every place but 0, where the packed word has `p0` alone (R162). -/
theorem packedElement_places_p0 :
    xorBits (packedElement x0 x1 p0 p1 p2 p4 p8) [0, 1, 2, 3, 4, 5, 6, 7, 8, 9, 10, 11, 12, 13, 14, 15] =
      (p0 ^^ hammingP0 (packedLow x0 p1 p2 p4) (packedMSW x0 x1 p8)) := by
  simp [xorBits, packedElement, packedLow, packedMSW, hammingP0, element_getLsbD]

theorem defaultUnpackLSW_packed (msw : Byte) :
    defaultUnpackLSW (packedLow x0 p1 p2 p4 ^^^ p0Picture p0) msw = x0 &&& 0x0F#8 := by
  ext i hi
  rw [defaultUnpackLSW_getElem]
  interval_cases i <;> simp [packedLow]

end Packed

/-- Settles O29: each parity bit cancels against its default function, on any `x[1]`. -/
theorem defaultParityFunctions : Obligations.DefaultParityFunctions := by
  intro x0 x1 _ msw low lsw w
  exact ⟨(packedElement_places_p1 ..).trans (Bool.xor_self _), (packedElement_places_p2 ..).trans (Bool.xor_self _),
    (packedElement_places_p4 ..).trans (Bool.xor_self _), (packedElement_places_p8 ..).trans (Bool.xor_self _),
    (packedElement_places_p0 ..).trans (Bool.xor_self _), defaultUnpackLSW_packed ..⟩

end Sys2Proof.Machine
end

section
/-! SUPPORT. Where one instruction leads: `pc` after it, data memory and instruction memory (R26, R35, R140, R180). -/

namespace Sys2Proof.Machine

theorem step_eq_next_iff (s t : State) :
    step s = .next t ↔ s.done = false ∧ ∃ w, fetchWord s.prog s.pc = some w ∧ exec (decode w) s = .next t := by
  obtain ⟨hd, hs⟩ | ⟨hd, hf, hs⟩ | ⟨hd, w, hf, hs⟩ := step_cases s
  · simp [hd, hs]
  · simp [hf, hs]
  · simp [hd, hf, hs]

theorem fetchWord_bounds {prog : List IWord} {a : Int} {w : IWord} (h : fetchWord prog a = some w) :
    0 ≤ a ∧ a < prog.length := by
  obtain ⟨h0, hw⟩ := (fetchWord_eq_some_iff prog a w).mp h
  obtain ⟨hlt, -⟩ := List.getElem?_eq_some_iff.mp hw
  omega

/-- A well-formed program has a further word after every word that is not the termination word (R182). -/
theorem succ_lt_length_of_fetchWord {prog : List IWord} {a : Int} {w : IWord} (hp : ProgWellFormed prog)
    (hf : fetchWord prog a = some w) (hw : w ≠ doneWord) : a + 1 < prog.length := by
  obtain ⟨-, -, hlast⟩ := hp
  obtain ⟨-, hget⟩ := (fetchWord_eq_some_iff prog a w).mp hf
  obtain ⟨h0, hlt⟩ := fetchWord_bounds hf
  by_contra hge
  have ha : a.toNat = prog.length - 1 := by omega
  rw [ha, ← List.getLast?_eq_getElem?, hlast, Option.some.injEq] at hget
  exact hw hget.symm

theorem exec_prog_eq {i : Instr} {s t : State} (h : exec i s = .next t) : t.prog = s.prog := by
  cases execEffect_of_exec h with
  | result d v hw =>
    obtain ⟨-, -, -, -, hprog, -⟩ := hw
    exact hprog
  | load | store | done => rfl
  | branch _ hk =>
    obtain ⟨-, -, hprog, -⟩ := hk
    exact hprog

theorem writeResult_dmem_eq {d : Reg} {v : Byte} {s t : State} (h : writeResult d v s = .next t) : t.dmem = s.dmem := by
  cases h; rfl

theorem writeIfRawLayout_dmem_eq {d : Reg} {v : Byte} {s t : State} (h : writeIfRawLayout d v s = .next t) :
    t.dmem = s.dmem := by
  unfold writeIfRawLayout at h
  split at h
  · exact writeResult_dmem_eq h
  · exact writeResult_dmem_eq (s := s.countDraw) h

theorem branchTo_dmem_eq {taken : Bool} {target : Int} {s t : State} (h : branchTo taken target s = .next t) :
    t.dmem = s.dmem := by
  cases taken <;> cases h <;> rfl

/-- Every instruction keeps data memory in its canonical form: all but Store keep the list itself (R40, R54). -/
theorem exec_dmem_wf {i : Instr} {s t : State} (hm : s.dmem.wf = true) (h : exec i s = .next t) : t.dmem.wf = true := by
  cases i with
  | store rA rD => cases h; exact State.memWrite_wf _ _ hm
  | load | done => cases h; exact hm
  | add | xor | and | addl | rotate | dplsh | dprsh | parityCalcP0 | parityPackLSW | parityUnpackLSW =>
    rwa [writeResult_dmem_eq h]
  | lshift | rshift => rwa [writeResult_dmem_eq (s := s.setSC _) h]
  | parityCalcP1 | parityCalcP2 | parityCalcP4 | parityCalcP8 | parityPackMSW => rwa [writeIfRawLayout_dmem_eq h]
  | branchIfZeroReg | branchIfZeroAbs | branchIfNegativeReg | branchIfNegativeAbs
  | branchIfNotZeroReg | branchIfNotZeroAbs | branchIfNotNegativeReg | branchIfNotNegativeAbs =>
    rwa [branchTo_dmem_eq h]
  | undefMode001 | undefMode101 | undefMode111 => cases h

theorem exec_done_pc_eq {s t : State} (h : exec .done s = .next t) : t.pc = s.pc := by
  cases h; rfl

theorem exec_pc_succ {i : Instr} {s t : State} (h : exec i s = .next t) (hb : i.isBranch = false) (hd : i ≠ .done) :
    t.pc = s.pc + 1 := by
  cases execEffect_of_exec h with
  | result d v hw =>
    obtain ⟨-, -, -, -, -, -, hpc⟩ := hw
    exact hpc
  | load | store => rfl
  | branch hi => simp [hb] at hi
  | done hi => exact absurd hi hd

theorem branchTo_pc {taken : Bool} {target : Int} {s t : State} (h : branchTo taken target s = .next t) :
    t.pc = s.pc + 1 ∨ t.pc = target := by
  cases taken with
  | false => cases h; exact .inl rfl
  | true => cases h; exact .inr rfl

/-- A branch leads to the next instruction or to the target of one of the two forms (R140 to R142). -/
theorem exec_branch_pc {i : Instr} {s t : State} (h : exec i s = .next t) (hb : i.isBranch = true) :
    t.pc = s.pc + 1 ∨ (∃ x, t.pc = relativeTarget x s) ∨ ∃ imm, t.pc = absoluteTarget imm := by
  cases i with
  | branchIfZeroReg x | branchIfNegativeReg x | branchIfNotZeroReg x | branchIfNotNegativeReg x =>
    exact (branchTo_pc h).imp_right fun hpc => .inl ⟨x, hpc⟩
  | branchIfZeroAbs imm | branchIfNegativeAbs imm | branchIfNotZeroAbs imm | branchIfNotNegativeAbs imm =>
    exact (branchTo_pc h).imp_right fun hpc => .inr ⟨imm, hpc⟩
  | _ => cases hb

theorem relativeTarget_bounds (x : Reg) (s : State) :
    s.pc - 128 ≤ relativeTarget x s ∧ relativeTarget x s ≤ s.pc + 127 := by
  have hlo := BitVec.le_toInt (s.reg x)
  have hhi := BitVec.toInt_lt (x := s.reg x)
  rw [relativeTarget_eq]
  omega

theorem absoluteTarget_bounds (imm : BitVec 3) : 0 ≤ absoluteTarget imm ∧ absoluteTarget imm ≤ 7 := by
  have himm := imm.isLt
  unfold absoluteTarget
  omega

/-- Where one instruction inside a program of `l` words can lead: the extremes are the relative branches at address 0 and at
the last word, by -128 and by 127 (R26, R141, R142, R180). -/
theorem exec_pc_bounds {i : Instr} {s t : State} {l : Nat} (hpc : 0 ≤ s.pc ∧ s.pc < l) (h : exec i s = .next t) :
    -128 ≤ t.pc ∧ t.pc < (l : Int) + 127 := by
  cases hb : i.isBranch with
  | true =>
    obtain hnext | ⟨x, hrel⟩ | ⟨imm, habs⟩ := exec_branch_pc h hb
    · omega
    · have htarget := relativeTarget_bounds x s
      omega
    · have htarget := absoluteTarget_bounds imm
      omega
  | false =>
    by_cases hd : i = .done
    · subst hd
      have hkept := exec_done_pc_eq h
      omega
    · have hnext := exec_pc_succ h hb hd
      omega

end Sys2Proof.Machine
end

section
/-! SUPPORT. Termination: the termination word (R180), the run invariant from a launch on, and sequential execution in a
well-formed program (R182). -/

namespace Sys2Proof.Machine

/-- Settles O41: the word executed is a word of the program, so it leads no further than `exec_pc_bounds` says; and only the
termination word raises `done`, at its own address. -/
theorem stepKeepsRunInv : Obligations.StepKeepsRunInv := by
  rintro s t ⟨hmem, hprog, -⟩ hstep
  obtain ⟨hd, w, hf, h⟩ := (step_eq_next_iff s t).mp hstep
  have hsame : t.prog = s.prog := exec_prog_eq h
  obtain ⟨hlo, hhi⟩ := exec_pc_bounds (fetchWord_bounds hf) h
  rw [RunInv, hsame]
  refine ⟨exec_dmem_wf hmem h, hprog, hlo, hhi, fun hdone => ?_⟩
  have hi : decode w = .done := (exec_raises_done_iff hd h).mp hdone
  have hw : w = doneWord := (decode_eq_done_iff w).mp hi
  rw [exec_done_pc_eq (hi ▸ h), hf, hw]

/-- Settles O46: the word executed did not raise `done`, so it is not the last. -/
theorem sequentialStaysInProgram : Obligations.SequentialStaysInProgram := by
  intro s t w hp hf hb hstep hdone
  obtain ⟨hd, v, hv, h⟩ := (step_eq_next_iff s t).mp hstep
  obtain rfl : w = v := Option.some.inj (hf.symm.trans hv)
  have hi : decode w ≠ .done := fun hi => by simp [(exec_raises_done_iff hd h).mpr hi] at hdone
  have hlt := succ_lt_length_of_fetchWord hp hf (mt (decode_eq_done_iff w).mpr hi)
  obtain ⟨h0, -⟩ := fetchWord_bounds hf
  rw [exec_pc_succ h hb hi]
  exact ⟨by omega, hlt⟩

/-- Settles O30: raising `done` and drawing Z and N leave every other field. -/
theorem doneResult : Obligations.DoneResult := fun s =>
  ⟨s.drawZN.raiseDone, rfl, State.raiseDone_done _, rfl, fun _ => rfl, fun _ => rfl, rfl, rfl⟩

/-- Settles O42: address 0 is inside a program of at least one word, and `done` is 0. -/
theorem launchMeetsRunInv : Obligations.LaunchMeetsRunInv := by
  rintro r ⟨hpc, hdone, hprog, -, hmem⟩
  rw [LaunchPc0] at hpc
  rw [LaunchNotDone] at hdone
  exact ⟨hmem, hprog, by omega, by omega, by simp [hdone]⟩

end Sys2Proof.Machine
end

section
/-! SUPPORT. What every step keeps: the canonical form of data memory, instruction memory, and the data cells but for Store
(R34, R35, R54); that every defined instruction completes (R26, R200); and the state at reset and at launch (R37, R212). -/

namespace Sys2Proof.Machine

/-- Settles O40: a step executes one instruction, and each keeps the form (`exec_dmem_wf`). -/
theorem stepKeepsMemoryCanonical : Obligations.StepKeepsMemoryCanonical := by
  intro s t hm hstep
  obtain ⟨-, w, -, h⟩ := (step_eq_next_iff s t).mp hstep
  exact exec_dmem_wf hm h

/-- Settles O39: where `exec_completes` leads, `pc` is one further unless the instruction is a branch or the termination
word. -/
theorem everyInstructionCompletes : Obligations.EveryInstructionCompletes := by
  intro i s hu
  obtain ⟨t, h⟩ := exec_completes s hu
  refine ⟨t, h, fun hb => ?_⟩
  split
  case isTrue hd => exact exec_done_pc_eq (hd ▸ h)
  case isFalse hd => exact exec_pc_succ h hb hd

/-- Settles O44: a step executes one instruction, and none writes instruction memory (`exec_prog_eq`). -/
theorem programNeverChanges : Obligations.ProgramNeverChanges := by
  intro s t hstep
  obtain ⟨-, w, -, h⟩ := (step_eq_next_iff s t).mp hstep
  exact exec_prog_eq h

/-- Settles O45: of the five effects an instruction can have, only that of Store writes a cell. -/
theorem onlyStoreChangesMemory : Obligations.OnlyStoreChangesMemory := by
  intro i s t hi h
  cases execEffect_of_exec h with
  | result d v hw =>
    obtain ⟨-, -, -, hcells, -⟩ := hw
    exact hcells
  | load | done => exact fun _ => rfl
  | store rA rD hs => exact absurd hs (hi rA rD)
  | branch _ hk =>
    obtain ⟨-, hcells, -⟩ := hk
    exact hcells

/-- Settles O43: reset gives these values, and `launch` sets no field but the four it names. -/
theorem resetAndLaunch : Obligations.ResetAndLaunch :=
  ⟨⟨rfl, rfl, State.reset_dmem_wf⟩, fun _ _ _ => ⟨rfl, rfl, rfl, rfl, fun _ => rfl, rfl, rfl, rfl⟩⟩

end Sys2Proof.Machine
end

section
/-! SUPPORT. The assembler's aliases: which lists of directives are ambiguous, and what a name stands for (R84, U3). -/

namespace Sys2Proof.Machine

/-- The search compares each directive with those after it. -/
theorem ambiguousName_eq_none_iff (ds : List Directive) :
    ambiguousName ds = none ↔ ds.Pairwise fun d e => e.name = d.name → e.reg = d.reg := by
  induction ds with
  | nil => simp [ambiguousName]
  | cons d ds ih =>
    rw [List.pairwise_cons, ← ih, ambiguousName]
    split
    case isTrue h =>
      obtain ⟨e, he, hclash⟩ := List.any_eq_true.mp h
      obtain ⟨hname, hreg⟩ : e.name = d.name ∧ e.reg ≠ d.reg := by simpa using hclash
      simp only [reduceCtorEq, false_iff]
      exact fun hsame => hreg (hsame.1 e he hname)
    case isFalse h =>
      have hsame : ∀ e ∈ ds, e.name = d.name → e.reg = d.reg := by simpa using h
      exact (and_iff_right hsame).symm

theorem reg_eq_of_ambiguousName_eq_none {ds : List Directive} (h : ambiguousName ds = none) {d e : Directive}
    (hd : d ∈ ds) (he : e ∈ ds) (hname : e.name = d.name) : e.reg = d.reg := by
  have hpair := (ambiguousName_eq_none_iff ds).mp h
  have hflip := hpair.imp fun hsame hn => (hsame (Eq.symm hn)).symm
  exact hpair.forall_of_forall_of_flip (fun _ _ _ => rfl) hflip hd he hname

theorem assemble_of_ambiguousName {source body : List (List Token)} {ds : List Directive} {name : String}
    (h : takeDirectives source = .ok (ds, body)) (ha : ambiguousName ds = some name) :
    assemble source = .error (.ambiguousName name) := by
  simp [assemble, h, ha]

/-- The first directive for a name decides what it stands for. -/
theorem resolve_eq_of_mem {ds : List Directive} {d : Directive} (hd : d ∈ ds) :
    ∃ e ∈ ds, e.name = d.name ∧ resolve ds d.name = .ok e.reg := by
  cases hf : ds.find? (fun e => e.name = d.name) with
  | none => simpa using List.find?_eq_none.mp hf d hd
  | some e =>
    exact ⟨e, List.mem_of_find?_eq_some hf, by simpa using List.find?_some hf, by simp [resolve, hf]⟩

/-- Settles O51: two registers under one name are what `ambiguousName` looks for; without them the first directive for a name
gives the register every other gives. -/
theorem aliasResolution : Obligations.AliasResolution := by
  intro source body ds h
  constructor
  · rintro ⟨d, hd, e, he, hname, hreg⟩
    have hsome : ambiguousName ds ≠ none := fun hnone =>
      hreg (reg_eq_of_ambiguousName_eq_none hnone he hd hname)
    obtain ⟨name, ha⟩ := Option.ne_none_iff_exists'.mp hsome
    exact ⟨name, assemble_of_ambiguousName h ha⟩
  · intro hsame d hd
    obtain ⟨e, he, hname, hres⟩ := resolve_eq_of_mem hd
    rw [hres, hsame e he d hd hname]

end Sys2Proof.Machine
end
